-- ==== Sys2Proof/Word.lean ====
section
/-! DEFINITION. The words of the hardware: bytes, Bus addresses and store offsets. -/

namespace Sys2Proof

/-- REG_BITS = 8 (spec/00_scope.md Table 00-1): a register, a Bus byte, a store byte. -/
abbrev Byte := BitVec 8

/-- ADDR_BITS = 16: a Bus address, the program counter. -/
abbrev Addr := BitVec 16

/-- A store offset, 22 bits (spec/10_state.md R23). -/
abbrev StoreAddr := BitVec 22

end Sys2Proof
end

