-- ==== Sys2Proof/Machine/Bits.lean ====
section
/-! DEFINITION. Byte order, bit slices and sign extension (spec/20_memory.md R47, spec/30_encoding.md R74, R78). -/

namespace Sys2Proof.Machine

/-- The 16-bit quantity with high byte `hi` and low byte `lo`. -/
def mk16 (hi lo : Byte) : Addr := hi ++ lo

/-- Bits 15:8. -/
def hi8 (a : Addr) : Byte := a.extractLsb' 8 8

/-- Bits 7:0. -/
def lo8 (a : Addr) : Byte := a.extractLsb' 0 8

/-- `zext_16` of a byte. -/
def zext16 (b : Byte) : Addr := b.setWidth 16

/-- `sext_16` of a byte (R74). -/
def sext16 (b : Byte) : Addr := b.signExtend 16

/-- R78: two addresses in different pages. -/
def pageCross (a b : Addr) : Bool := hi8 a != hi8 b

end Sys2Proof.Machine
end

