-- ==== Sys2Proof/Config.lean ====
section
/-! DEFINITION. What one instance of the hardware fixes (the parameters of spec/00_scope.md R7,
Table 00-1, as a record that State carries, so that statements hold for every value) and the free
values (opaque constants: nothing in Lean can evaluate them). The default numbers stand in
Sys2Proof/Machine/Params.lean. -/

namespace Sys2Proof

/-- The three VIA instances (R200). -/
inductive ViaId where
  | via1 | via2 | via3
  deriving DecidableEq, Repr

/-- The two instances whose writes can feed the storage controller (R208: instance 1 never does). -/
inductive Companion where
  | via2 | via3
  deriving DecidableEq, Repr

/-- The two ports of a VIA, numbered by their offsets (R202). -/
inductive Port where
  | p0 | p1
  deriving DecidableEq, Repr

/-- The edge that one assertion of control line 1 produces (CL1_ASSERT_EDGE). -/
inductive Edge where
  | falling | rising
  deriving DecidableEq, Repr

/-- DMA_GRANULARITY (R245). -/
inductive Granularity where
  | perByte | whole
  deriving DecidableEq, Repr

/-- One row of RESERVED_TABLE (R189): operand bytes skipped and cycles of a reserved opcode. -/
structure ReservedRow where
  opcode : Byte
  skip : Fin 3
  cycles : Nat
  deriving DecidableEq, Repr

/-- The parameters of Table 00-1 (R7). ROM_SIZE is 0x10000 - ROM_BASE and has no field of its own;
STACK_PAGE is kept as the page number, its low byte being zero (R16).
ROM_IMAGE and STORE_IMAGE are arguments of power-on. -/
structure Config where
  stackPage : Byte
  vecNmi : Addr
  vecReset : Addr
  vecIrq : Addr
  viaBase1 : Addr
  viaBase2 : Addr
  viaBase3 : Addr
  romBase : Addr
  resetA : Byte
  resetX : Byte
  resetY : Byte
  resetSp : Byte
  resetP : Byte
  resetCycles : Nat
  /-- RESERVED_TABLE; an opcode with no row skips no byte and costs 1 cycle (log entry 10). -/
  reservedTable : List ReservedRow
  intClearsD : Bool
  cl1IfrBit : Fin 7
  cl1Port : Port
  cl1PcrBit : Fin 8
  cl1AssertEdge : Edge
  scFeed : List (Companion × Port)
  dmaGranularity : Granularity
  deriving DecidableEq, Repr

/-- FREE VALUE. The byte a CPU read of an undescribed VIA offset returns (R214, U10), for each draw. Log entry 9. -/
opaque Config.freeByte : Nat → Byte

/-- FREE VALUE. How many turns the DMA agent lets pass before it moves, while BUSY = 1 and `State.dmaPlan` is empty: no bound
is given, but it is a number, so an enabled DmaStep is eventually taken (R245, D29). Log entry 8. -/
opaque Config.dmaDelay : Nat → Nat

/-- FREE VALUE. How many DMA steps the agent takes when it moves, beyond the first (R245, R247: no order may be picked). Log
entry 8. -/
opaque Config.dmaBurst : Nat → Nat

/-- FREE VALUE. CLOCK_HZ (R10, R323): no rule reads it. Log entry 12. -/
opaque Config.clockHz : Nat

end Sys2Proof
end

