-- ==== Sys2Proof/Machine/Memory.lean ====
section
/-! DEFINITION. Sparse byte memories in one canonical form: addresses strictly rising, no entry equal to 0x00, which
is what an unlisted address reads as (spec/70_reset_and_hazards.md R304, "zero-padded below"; the ROM region and the
store: log entries 2 and 3). -/

namespace Sys2Proof.Machine

/-- The content of a memory: Bus memory (R22) or the store (R23). -/
abbrev Memory := List Host.Cell

/-- What an unlisted address reads as. -/
def Memory.unlisted : Byte := 0x00

/-- Read one byte. -/
def Memory.read : Memory → Nat → Byte
  | [], _ => Memory.unlisted
  | (k, w) :: rest, a => if k = a then w else Memory.read rest a

/-- Put a cell before `rest`, or nothing when the byte is what an unlisted address reads as. -/
def Memory.cons (a : Nat) (v : Byte) (rest : Memory) : Memory :=
  if v = Memory.unlisted then rest else (a, v) :: rest

/-- Write one byte, keeping the canonical form. -/
def Memory.write : Memory → Nat → Byte → Memory
  | [], a, v => Memory.cons a v []
  | (k, w) :: rest, a, v =>
    if a < k then Memory.cons a v ((k, w) :: rest)
    else if a = k then Memory.cons a v rest
    else (k, w) :: Memory.write rest a v

/-- Write a run of bytes at ascending addresses. -/
def Memory.load (m : Memory) (a : Nat) : List Byte → Memory
  | [] => m
  | v :: vs => Memory.load (m.write a v) (a + 1) vs

/-- Clear every byte below `bound` (R303). -/
def Memory.clearBelow (m : Memory) (bound : Nat) : Memory := m.filter (fun c => decide (bound ≤ c.1))

/-- Every listed address is above `lo` and the addresses rise strictly; no listed byte is the unlisted one. -/
def Memory.risingFrom : Nat → Memory → Bool
  | _, [] => true
  | lo, (k, w) :: rest => decide (lo ≤ k) && (w != Memory.unlisted) && Memory.risingFrom (k + 1) rest

/-- The canonical form of a memory of `size` bytes. -/
def Memory.wf (size : Nat) (m : Memory) : Bool :=
  Memory.risingFrom 0 m && m.all (fun c => decide (c.1 < size))

end Sys2Proof.Machine
end

