-- ==== Sys2Proof/Machine/Params.lean ====
section
/-! DEFINITION. The default parameters (spec/00_scope.md Table 00-1, spec/47_transfer_flag_nop.md Table 47-1)
and the constraints on parameters (R7). -/

namespace Sys2Proof.Machine

/-- Table 47-1, the default RESERVED_TABLE: the opcodes that skip no byte and cost 1 cycle have no row
(PRESUMED by the spec itself: general knowledge of the CMOS 65C02, D2; log entry 10). -/
def defaultReservedTable : List ReservedRow :=
  [⟨0x02, 1, 2⟩, ⟨0x22, 1, 2⟩, ⟨0x42, 1, 2⟩, ⟨0x62, 1, 2⟩, ⟨0x82, 1, 2⟩, ⟨0xC2, 1, 2⟩, ⟨0xE2, 1, 2⟩] ++
  [⟨0x44, 1, 3⟩, ⟨0x54, 1, 4⟩, ⟨0xD4, 1, 4⟩, ⟨0xF4, 1, 4⟩] ++
  [⟨0x5C, 2, 8⟩, ⟨0xDC, 2, 4⟩, ⟨0xFC, 2, 4⟩]

/-- The defaults of Table 00-1; for the OPEN ones the values of the spec's examples
(DESIGN CHOICE, log entry 1). -/
def defaultConfig : Config where
  stackPage := 0x01
  vecNmi := 0xFFFA
  vecReset := 0xFFFC
  vecIrq := 0xFFFE
  viaBase1 := 0x7F00
  viaBase2 := 0x7F10
  viaBase3 := 0x7F20
  romBase := 0x8000
  resetA := 0x00
  resetX := 0x00
  resetY := 0x00
  resetSp := 0xFD
  resetP := 0x34
  resetCycles := 7
  reservedTable := defaultReservedTable
  intClearsD := false
  cl1IfrBit := 1
  cl1Port := .p1
  cl1PcrBit := 0
  cl1AssertEdge := .falling
  scFeed := [(.via2, .p1), (.via3, .p1)]
  dmaGranularity := .perByte

/-- The row of an opcode in a reserved table; none listed means no byte skipped and 1 cycle (log entry 10). -/
def reservedRow (t : List ReservedRow) (op : Byte) : ReservedRow :=
  (t.find? (fun r => r.opcode == op)).getD ⟨op, 0, 1⟩

/-- R7 for one window: its base is a multiple of 16, and it lies off zero page, the stack pages (0x0100 and
STACK_PAGE), the vector bytes 0xFFFA to 0xFFFF, and below ROM_BASE. -/
def windowOk (c : Config) (base : Addr) : Bool :=
  base.toNat % 16 == 0 && decide (0x0200 ≤ base.toNat) && decide (base.toNat + 15 < 0xFFFA) &&
    base.toNat / 256 != c.stackPage.toNat && decide (base.toNat + 15 < c.romBase.toNat)

/-- Two windows are disjoint. -/
def windowsDisjoint (a b : Addr) : Bool :=
  decide (a.toNat + 15 < b.toNat) || decide (b.toNat + 15 < a.toNat)

/-- A vector pair lies in the ROM region (R54, R300). -/
def vectorOk (c : Config) (v : Addr) : Bool :=
  decide (c.romBase.toNat ≤ v.toNat) && decide (v.toNat + 1 < 65536)

/-- The constraints of R7 on the parameters; `step` refuses a machine that breaks one. -/
def configOk (c : Config) : Bool :=
  windowOk c c.viaBase1 && windowOk c c.viaBase2 && windowOk c c.viaBase3 &&
    windowsDisjoint c.viaBase1 c.viaBase2 && windowsDisjoint c.viaBase1 c.viaBase3 &&
    windowsDisjoint c.viaBase2 c.viaBase3 &&
    vectorOk c c.vecNmi && vectorOk c c.vecReset && vectorOk c c.vecIrq

end Sys2Proof.Machine
end

