-- ==== Sys2Proof/Machine/State.lean ====
section
/-! DEFINITION. The state of the machine (spec/10_state.md), as plain data, its value after reset, and the reasons a
step can stop. -/

namespace Sys2Proof.Machine

/-- One VIA instance (R24, Table 10-2). `IFR[7]` is computed (R203) and the base address is a parameter. `pin0` and
`pin1` are not state of the chip: they are what the environment drives on its port pins (R24, R213). -/
@[ext] structure Via where
  or0 : Byte
  or1 : Byte
  ir0 : Byte
  ir1 : Byte
  ddr0 : Byte
  ddr1 : Byte
  pcr : Byte
  ifr : BitVec 7
  ier : BitVec 7
  ca1 : Bool
  ca2 : Bool
  cb1 : Bool
  cb2 : Bool
  pin0 : Byte
  pin1 : Byte
  deriving DecidableEq, Repr

/-- PHASE: which byte of the three-byte sequence comes next (R236). -/
inductive Phase where
  | byte0 | byte1 | byte2
  deriving DecidableEq, Repr

/-- DIR (R237): receive (0) copies Bus memory to the store, send (1) the store to Bus memory. -/
inductive Direction where
  | receive | send
  deriving DecidableEq, Repr

/-- The storage controller but for its store (R25, Table 10-3). -/
@[ext] structure StorageCtl where
  scratch : BitVec 22
  phase : Phase
  dsr : Addr
  ar : StoreAddr
  olr : BitVec 11
  dsrSet : Bool
  arSet : Bool
  olrSet : Bool
  dir : Direction
  busy : Bool
  comp : Companion
  xferI : Nat
  deriving DecidableEq, Repr

/-- The environment's lines (R20, R306): `true` is level 1, so `resetN = false` is reset asserted. -/
@[ext] structure Lines where
  power : Bool
  ready : Bool
  resetN : Bool
  nmiN : Bool
  deriving DecidableEq, Repr

/-- A move of the environment between two CPU steps (R5, R219, R220, R265). -/
inductive EnvMove where
  | setPower (level : Bool)
  | setReady (level : Bool)
  | setResetN (level : Bool)
  | setNmiN (level : Bool)
  | setPin (c : ViaId) (p : Port) (v : Byte)
  | assertCl1 (c : ViaId)
  deriving DecidableEq, Repr

/-- Whose turn it is (R5): the CPU takes one step, the DMA agent takes one step (if BUSY = 1), or the environment makes
one move. -/
inductive Turn where
  | cpu
  | dma
  | env (m : EnvMove)
  deriving DecidableEq, Repr

/-- The whole state. `script`, `dmaPlan`, `dmaWait` and `freeIndex` are the model's own (log entries 7, 8, 9); `cfg` holds the
parameters, which no step changes. -/
@[ext]
structure State where
  cfg : Config
  a : Byte
  x : Byte
  y : Byte
  sp : Byte
  p : Byte
  pc : Addr
  /-- CYC (R19). -/
  cyc : Nat
  /-- NMI_LATCH (R21). -/
  nmiLatch : Bool
  lines : Lines
  /-- Bus memory, RAM[0..65535] (R22). -/
  mem : Memory
  /-- STORE[0..4194303] (R23). -/
  store : Memory
  via1 : Via
  via2 : Via
  via3 : Via
  sc : StorageCtl
  /-- The coming turns; when it is empty every turn is the CPU's. -/
  script : List Turn
  /-- How many DMA steps the agent takes at each of its coming turns; when empty, the free values of `Config` say. -/
  dmaPlan : List Nat
  /-- How many turns the DMA agent still lets pass before it moves, once `Config.dmaDelay` has said so (R245). -/
  dmaWait : Option Nat
  /-- How many free values have been drawn. -/
  freeIndex : Nat
  deriving DecidableEq, Repr

/-- The reasons a step ends in a fault. The hardware itself has none (R8, R260). -/
inductive Fault where
  /-- Raised by `step` when POWER = 0: the run has ended, there is no state after it (R306). Safe. -/
  | powerOff
  deriving DecidableEq, Repr

/-- The reasons the model gives a step no meaning. -/
inductive Refusal where
  /-- Raised by an arm of `exec` for an instruction without a meaning. No arm raises it. Safe. -/
  | notModelled (mnemonic : String)
  /-- Raised by `step` when the parameters break a constraint of R7 ("A model refuses a configuration that breaks a
  constraint"). Safe. -/
  | badConfiguration
  deriving DecidableEq, Repr

/-- A VIA at power-on (R225); the pins as in the spec's examples (log entry 6). -/
def Via.powerOn : Via where
  or0 := 0
  or1 := 0
  ir0 := 0
  ir1 := 0
  ddr0 := 0
  ddr1 := 0
  pcr := 0
  ifr := 0
  ier := 0
  ca1 := false
  ca2 := false
  cb1 := false
  cb2 := false
  pin0 := 0
  pin1 := 0

/-- The storage controller at power-on (R304, Table 10-4); COMP is unspecified there (log entry 5). -/
def StorageCtl.powerOn : StorageCtl where
  scratch := 0
  phase := .byte0
  dsr := 0
  ar := 0
  olr := 0
  dsrSet := false
  arSet := false
  olrSet := false
  dir := .receive
  busy := false
  comp := .via2
  xferI := 0

/-- The machine after power-on and its one reset (R304, Table 10-4), with the default parameters and nothing loaded:
PC is Read16(VEC_RESET), which is 0x0000 while no ROM image is loaded (log entry 2). -/
def State.reset : State where
  cfg := defaultConfig
  a := defaultConfig.resetA
  x := defaultConfig.resetX
  y := defaultConfig.resetY
  sp := defaultConfig.resetSp
  p := defaultConfig.resetP
  pc := 0x0000
  cyc := defaultConfig.resetCycles
  nmiLatch := false
  lines := ⟨true, true, true, true⟩
  mem := []
  store := []
  via1 := Via.powerOn
  via2 := Via.powerOn
  via3 := Via.powerOn
  sc := StorageCtl.powerOn
  script := []
  dmaPlan := []
  dmaWait := none
  freeIndex := 0

end Sys2Proof.Machine
end

