-- ==== Sys2Proof/Machine/Access.lean ====
section
/-! DEFINITION. The accessors of the state: every write of a register, a memory, a VIA instance or the storage
controller goes through one of these. -/

namespace Sys2Proof.Machine

/-- A meaning's answer. -/
abbrev Result := Host.Outcome State Fault Refusal

/-- Write A (R11). -/
def State.setA (s : State) (v : Byte) : State := { s with a := v }

/-- Write X (R11). -/
def State.setX (s : State) (v : Byte) : State := { s with x := v }

/-- Write Y (R11). -/
def State.setY (s : State) (v : Byte) : State := { s with y := v }

/-- Write SP (R16). -/
def State.setSp (s : State) (v : Byte) : State := { s with sp := v }

/-- Write P, all eight bits (R13). -/
def State.setP (s : State) (v : Byte) : State := { s with p := v }

/-- Write PC (R12). -/
def State.setPc (s : State) (v : Addr) : State := { s with pc := v }

/-- `Cycles(n)` (R19). -/
def State.charge (s : State) (n : Nat) : State := { s with cyc := s.cyc + n }

/-- Write NMI_LATCH (R21). -/
def State.setNmiLatch (s : State) (b : Bool) : State := { s with nmiLatch := b }

/-- Replace the environment's lines (R20). -/
def State.setLines (s : State) (l : Lines) : State := { s with lines := l }

/-- Replace Bus memory (R22). -/
def State.setMem (s : State) (m : Memory) : State := { s with mem := m }

/-- Replace the store (R23). -/
def State.setStore (s : State) (m : Memory) : State := { s with store := m }

/-- Replace the storage controller's registers (R25). -/
def State.setSc (s : State) (c : StorageCtl) : State := { s with sc := c }

/-- Replace the coming turns (log entry 7). -/
def State.setScript (s : State) (l : List Turn) : State := { s with script := l }

/-- Replace the plan of DMA steps (log entry 8). -/
def State.setDmaPlan (s : State) (l : List Nat) : State := { s with dmaPlan := l }

/-- Replace the DMA agent's pending wait (R245, log entry 8). -/
def State.setDmaWait (s : State) (w : Option Nat) : State := { s with dmaWait := w }

/-- Count one free value as drawn (log entry 9). -/
def State.drawFree (s : State) : State := { s with freeIndex := s.freeIndex + 1 }

/-- VIA instance `c` (R200). -/
def State.via (s : State) (c : ViaId) : Via :=
  match c with
  | .via1 => s.via1
  | .via2 => s.via2
  | .via3 => s.via3

/-- Replace VIA instance `c`. -/
def State.setVia (s : State) (c : ViaId) (v : Via) : State :=
  match c with
  | .via1 => { s with via1 := v }
  | .via2 => { s with via2 := v }
  | .via3 => { s with via3 := v }

/-- VIA_BASE[c]. -/
def viaBase (cfg : Config) (c : ViaId) : Addr :=
  match c with
  | .via1 => cfg.viaBase1
  | .via2 => cfg.viaBase2
  | .via3 => cfg.viaBase3

/-- The instance a companion is. -/
def companionVia (c : Companion) : ViaId :=
  match c with
  | .via2 => .via2
  | .via3 => .via3

/-- The companion an instance is, if it can feed the storage controller. -/
def companionOf (c : ViaId) : Option Companion :=
  match c with
  | .via1 => none
  | .via2 => some .via2
  | .via3 => some .via3

end Sys2Proof.Machine
end

