-- ==== Sys2Proof/Machine/Via.lean ====
section
/-! DEFINITION. One VIA instance (spec/48_via.md): its registers seen from inside the chip. The coupling to the storage
controller (R208) and the free value of an undescribed offset (R214) stand in Sys2Proof/Machine/Bus.lean. -/

namespace Sys2Proof.Machine

/-- CL1_PORT and the other port's cause bit: CauseBit(CL1_PORT) = CL1_IFR_BIT, the other port's is 4 (R206, R215). -/
def causeBit (cfg : Config) (p : Port) : Nat := if p = cfg.cl1Port then cfg.cl1IfrBit.val else 4

/-- A 7-bit register with one bit cleared. -/
def clearBit7 (r : BitVec 7) (k : Nat) : BitVec 7 := r &&& ~~~(1#7 <<< k)

/-- A 7-bit register with one bit set. -/
def setBit7 (r : BitVec 7) (k : Nat) : BitVec 7 := r ||| (1#7 <<< k)

/-- OR[p]. -/
def Via.outLatch (v : Via) (p : Port) : Byte :=
  match p with
  | .p0 => v.or0
  | .p1 => v.or1

/-- IR[p]. -/
def Via.inLatch (v : Via) (p : Port) : Byte :=
  match p with
  | .p0 => v.ir0
  | .p1 => v.ir1

/-- DDR[p]. -/
def Via.ddr (v : Via) (p : Port) : Byte :=
  match p with
  | .p0 => v.ddr0
  | .p1 => v.ddr1

/-- PIN[p]. -/
def Via.pin (v : Via) (p : Port) : Byte :=
  match p with
  | .p0 => v.pin0
  | .p1 => v.pin1

/-- Write OR[p]: all eight bits, whatever DDR[p] holds (R207). -/
def Via.setOutLatch (v : Via) (p : Port) (b : Byte) : Via :=
  match p with
  | .p0 => { v with or0 := b }
  | .p1 => { v with or1 := b }

/-- Write IR[p]. -/
def Via.setInLatch (v : Via) (p : Port) (b : Byte) : Via :=
  match p with
  | .p0 => { v with ir0 := b }
  | .p1 => { v with ir1 := b }

/-- Write DDR[p] (R209). -/
def Via.setDdr (v : Via) (p : Port) (b : Byte) : Via :=
  match p with
  | .p0 => { v with ddr0 := b }
  | .p1 => { v with ddr1 := b }

/-- Drive PIN[p], the environment's move (R220). -/
def Via.setPin (v : Via) (p : Port) (b : Byte) : Via :=
  match p with
  | .p0 => { v with pin0 := b }
  | .p1 => { v with pin1 := b }

/-- IFR[7], the composite bit (R203). -/
def Via.composite (v : Via) : Bool := v.ifr != 0

/-- The byte a read of the flags register gives: {IFR[7], IFR[6:0]} (R211). -/
def Via.ifrByte (v : Via) : Byte := (BitVec.ofBool v.composite) ++ v.ifr

/-- The byte a read of the enable register gives: IER[6:0] OR 0x80 (R212). -/
def Via.ierByte (v : Via) : Byte := 1#1 ++ v.ier

/-- IrqOut(c), active low: `true` means no interrupt pending (R222). -/
def Via.irqOut (v : Via) : Bool := !v.composite

/-- PortRead (R206): the value is `v.inLatch p`, and this is the chip after it. -/
def Via.portRead (cfg : Config) (v : Via) (p : Port) : Via :=
  { v.setInLatch p 0x00 with ifr := clearBit7 v.ifr (causeBit cfg p) }

/-- Write of the flags register: each cause bit written as 1 is cleared, bit 7 is ignored (R211). -/
def Via.writeIfr (v : Via) (b : Byte) : Via := { v with ifr := v.ifr &&& ~~~(b.setWidth 7) }

/-- Write of the enable register: bit 7 set enables the listed causes, bit 7 clear disables them (R212). -/
def Via.writeIer (v : Via) (b : Byte) : Via :=
  if b.getLsbD 7 then { v with ier := v.ier ||| b.setWidth 7 }
  else { v with ier := v.ier &&& ~~~(b.setWidth 7) }

/-- PortValue(c, p) (R213). -/
def Via.portValue (v : Via) (p : Port) : Byte := (v.outLatch p &&& v.ddr p) ||| (v.pin p &&& ~~~ v.ddr p)

/-- CL1Active(c): the edge an assertion produces is the one PCR selects (R216). -/
def Via.cl1Active (cfg : Config) (v : Via) : Bool :=
  match cfg.cl1AssertEdge with
  | .falling => !v.pcr.getLsbD cfg.cl1PcrBit.val
  | .rising => v.pcr.getLsbD cfg.cl1PcrBit.val

/-- AssertCL1(c) (R218). -/
def Via.assertCl1 (cfg : Config) (v : Via) : Via :=
  let v1 := { v with ca1 := cfg.cl1AssertEdge = .rising }
  if v.cl1Active cfg && v.ier.getLsbD cfg.cl1IfrBit.val then
    { v1.setInLatch cfg.cl1Port (v.portValue cfg.cl1Port) with ifr := setBit7 v.ifr cfg.cl1IfrBit.val }
  else v1

/-- IRQ_n = IrqOut(1) AND IrqOut(2) AND IrqOut(3), active low (R20, R222). -/
def State.irqN (s : State) : Bool := s.via1.irqOut && s.via2.irqOut && s.via3.irqOut

/-- AssertCL1 on instance `c` of the machine (R218, R219). -/
def assertCl1 (c : ViaId) (s : State) : State := s.setVia c ((s.via c).assertCl1 s.cfg)

end Sys2Proof.Machine
end

