-- ==== Sys2Proof/Machine/Storage.lean ====
section
/-! DEFINITION. The DMA storage controller (spec/49_storage_controller.md): the byte protocol, the transfer, and the step of
the DMA agent. Its Bus side is RAM itself, not the address decoder (R231). -/

namespace Sys2Proof.Machine

/-- RamRead (R42). -/
def ramRead (a : Addr) (s : State) : Byte := s.mem.read a.toNat

/-- RamWrite (R43): never blocked, the ROM region included. -/
def ramWrite (a : Addr) (v : Byte) (s : State) : State := s.setMem (s.mem.write a.toNat v)

/-- ScCopyByte(i) (R243): both addresses wrap at the end of their memory. -/
def scCopyByte (i : Nat) (s : State) : State :=
  let ra : Addr := s.sc.dsr + BitVec.ofNat 16 i
  let sa : StoreAddr := s.sc.ar + BitVec.ofNat 22 i
  match s.sc.dir with
  | .send => ramWrite ra (s.store.read sa.toNat) s
  | .receive => s.setStore (s.store.write sa.toNat (ramRead ra s))

/-- The controller after ScFinish: DIR, PHASE and COMP are not changed (R244). -/
def StorageCtl.finished (c : StorageCtl) : StorageCtl :=
  { c with
    dsr := 0, ar := 0, olr := 0, dsrSet := false, arSet := false, olrSet := false, scratch := 0, xferI := 0,
    busy := false }

/-- ScFinish() (R244): control line 1 of the companion is asserted, then the latches are cleared. -/
def scFinish (s : State) : State :=
  let s1 := assertCl1 (companionVia s.sc.comp) s
  s1.setSc s1.sc.finished

/-- ScCopyByte(i) for `n` successive indexes, ascending from `i` (R243). -/
def scCopyRun (i : Nat) (n : Nat) (s : State) : State :=
  match n with
  | 0 => s
  | n + 1 => scCopyRun (i + 1) n (scCopyByte i s)

/-- ScTransfer() (R243): the whole transfer as one action. -/
def scTransfer (s : State) : State := scFinish (scCopyRun 0 s.sc.olr.toNat s)

/-- ScStart(c) (R242): through instance 2 the transfer runs at once, through instance 3 the DMA agent will run it. -/
def scStart (c : Companion) (s : State) : State :=
  match c with
  | .via2 => scTransfer (s.setSc { s.sc with comp := .via2 })
  | .via3 => s.setSc { s.sc with comp := .via3, busy := true, xferI := 0 }

/-- ScCommit(c) (R238, R240). -/
def scCommit (c : Companion) (s : State) : State :=
  let k := s.sc
  if k.dsrSet = false then s.setSc { k with dsr := k.scratch.setWidth 16, dsrSet := true, scratch := 0 }
  else if k.arSet = false then s.setSc { k with ar := k.scratch, arSet := true, scratch := 0 }
  else if k.olrSet = false then
    scStart c (s.setSc { k with olr := k.scratch.setWidth 11, olrSet := true, scratch := 0 })
  else s.setSc { k with scratch := 0 }

/-- ScWriteByte(b, c) (R236, R237). While BUSY = 1 this races with the DMA agent; the race is kept, every interleaving
of the agent's steps with the CPU's accesses being allowed (R247; log entry 8). -/
def scWriteByte (b : Byte) (c : Companion) (s : State) : State :=
  let k := s.sc
  match k.phase with
  | .byte0 => s.setSc { k with scratch := k.scratch ||| b.setWidth 22, phase := .byte1 }
  | .byte1 => s.setSc { k with scratch := k.scratch ||| (b.setWidth 22 <<< 8), phase := .byte2 }
  | .byte2 =>
    let s1 := s.setSc
      { k with
        scratch := k.scratch ||| ((b.setWidth 22 &&& 0x3F#22) <<< 16),
        dir := if b.getLsbD 6 then .send else .receive, phase := .byte0 }
    if b.getLsbD 7 then scCommit c s1 else s1

/-- DmaStep (R245), enabled while BUSY = 1. -/
def dmaStep (s : State) : State :=
  match s.cfg.dmaGranularity with
  | .whole => scTransfer s
  | .perByte =>
    if s.sc.xferI < s.sc.olr.toNat then
      let s1 := scCopyByte s.sc.xferI s
      s1.setSc { s1.sc with xferI := s1.sc.xferI + 1 }
    else scFinish s

/-- `n` steps of the DMA agent, as far as they are enabled. -/
def dmaSteps (n : Nat) (s : State) : State :=
  match n with
  | 0 => s
  | n + 1 => if s.sc.busy then dmaSteps n (dmaStep s) else s

/-- The DMA agent's turn without a plan: it lets a free number of turns pass, then takes a free number of steps, at least one.
So no bound is set on its delay, and an enabled step is eventually taken (the fairness of R245, D29; log entry 8). -/
def dmaFreeTurn (s : State) : State :=
  match s.dmaWait.getD (Config.dmaDelay s.freeIndex) with
  | 0 => dmaSteps (Config.dmaBurst s.freeIndex + 1) (s.setDmaWait none).drawFree
  | n + 1 => s.setDmaWait (some n)

/-- The DMA agent's turn before a CPU Bus access, and at a CPU turn with READY = 0 (R245 to R247): any number of steps, by the
plan while it lasts, then by the free values. -/
def dmaTurn (s : State) : State :=
  if s.sc.busy then
    match s.dmaPlan with
    | n :: rest => dmaSteps n (s.setDmaPlan rest)
    | [] => dmaFreeTurn s
  else s

end Sys2Proof.Machine
end

