-- ==== Sys2Proof/Machine/Bus.lean ====
section
/-! DEFINITION. The address decoder and the CPU's Bus accesses (spec/20_memory.md R41 to R46), with the register accesses of
the VIA windows (spec/48_via.md R204, R205). A read answers the byte and the state after it. -/

namespace Sys2Proof.Machine

/-- Where an address leads: a register of a VIA, or Bus memory. -/
inductive Target where
  | chip (c : ViaId) (offset : BitVec 4)
  | plain
  deriving DecidableEq, Repr

/-- An address lies in the window of instance `c`. -/
def inWindow (cfg : Config) (c : ViaId) (a : Addr) : Bool :=
  decide ((viaBase cfg c).toNat ≤ a.toNat) && decide (a.toNat ≤ (viaBase cfg c).toNat + 15)

/-- Decode(addr) (R41): the windows in the order 1, 2, 3. -/
def decodeAddr (cfg : Config) (a : Addr) : Target :=
  if inWindow cfg .via1 a then .chip .via1 (a.setWidth 4)
  else if inWindow cfg .via2 a then .chip .via2 (a.setWidth 4)
  else if inWindow cfg .via3 a then .chip .via3 (a.setWidth 4)
  else .plain

/-- What a register offset names (Table 48-1). -/
inductive ViaReg where
  | port (p : Port)
  | ddr (p : Port)
  | pcr
  | ifr
  | ier
  /-- Offsets 0x4 to 0xB and 0xF, not described by the source (R214). -/
  | undescribed
  deriving DecidableEq, Repr

/-- Table 48-1. -/
def viaReg (o : BitVec 4) : ViaReg :=
  match o.toNat with
  | 0x0 => .port .p0
  | 0x1 => .port .p1
  | 0x2 => .ddr .p0
  | 0x3 => .ddr .p1
  | 0xC => .pcr
  | 0xD => .ifr
  | 0xE => .ier
  | _ => .undescribed

/-- ViaRead(c, o) (R204). The byte read at an undescribed offset is a free value (R214, U10; log entry 9). -/
def viaRead (c : ViaId) (o : BitVec 4) (s : State) : Byte × State :=
  match viaReg o with
  | .port p => ((s.via c).inLatch p, s.setVia c ((s.via c).portRead s.cfg p))
  | .ddr p => ((s.via c).ddr p, s)
  | .pcr => ((s.via c).pcr, s)
  | .ifr => ((s.via c).ifrByte, s)
  | .ier => ((s.via c).ierByte, s)
  | .undescribed => (Config.freeByte s.freeIndex, s.drawFree)

/-- R208: after a port write, a byte for the storage controller if (c, p) is in SC_FEED. -/
def feed (c : ViaId) (p : Port) (v : Byte) (s : State) : State :=
  match companionOf c with
  | some k => if s.cfg.scFeed.contains (k, p) then scWriteByte v k s else s
  | none => s

/-- ViaWrite(c, o, v) (R205). A write at an undescribed offset has no effect (R214). -/
def viaWrite (c : ViaId) (o : BitVec 4) (v : Byte) (s : State) : State :=
  match viaReg o with
  | .port p => feed c p v (s.setVia c ((s.via c).setOutLatch p v))
  | .ddr p => s.setVia c ((s.via c).setDdr p v)
  | .pcr => s.setVia c { s.via c with pcr := v }
  | .ifr => s.setVia c ((s.via c).writeIfr v)
  | .ier => s.setVia c ((s.via c).writeIer v)
  | .undescribed => s

/-- The access itself of a CPU read (R44). -/
def busRead (a : Addr) (s : State) : Byte × State :=
  match decodeAddr s.cfg a with
  | .chip c o => viaRead c o s
  | .plain => (ramRead a s, s)

/-- The access itself of a CPU write (R45). -/
def busWrite (a : Addr) (v : Byte) (s : State) : State :=
  match decodeAddr s.cfg a with
  | .chip c o => viaWrite c o v s
  | .plain => ramWrite a v s

/-- MemRead(addr, 1) (R44), after the DMA agent's turn. -/
def memRead (a : Addr) (s : State) : Byte × State := busRead a (dmaTurn s)

/-- MemWrite(addr, 1, v) (R45), after the DMA agent's turn. -/
def memWrite (a : Addr) (v : Byte) (s : State) : State := busWrite a v (dmaTurn s)

/-- Read16(a): low byte at `a`, read first, high byte at `a + 1` (R47). -/
def read16 (a : Addr) (s : State) : Addr × State :=
  let lo := memRead a s
  let hi := memRead (a + 1) lo.2
  (mk16 hi.1 lo.1, hi.2)

/-- Read16ZP(z): both bytes in page zero (R79). -/
def read16zp (z : Byte) (s : State) : Addr × State :=
  let lo := memRead (zext16 z) s
  let hi := memRead (zext16 (z + 1)) lo.2
  (mk16 hi.1 lo.1, hi.2)

end Sys2Proof.Machine
end

