-- ==== Sys2Proof/Machine/Flags.lean ====
section
/-! DEFINITION. The status register P (spec/10_state.md R13 to R15) and every flag computation: SetNZ, ADC and SBC in binary
and decimal mode (spec/41_alu_logic.md R124, R125), compares (R135), bit tests (R126 to R128), shifts (R130 to R133). -/

namespace Sys2Proof.Machine

/-- The eight bits of P (R13). -/
inductive Flag where
  | c | z | i | d | b | u | v | n
  deriving DecidableEq, Repr

/-- The bit number of a flag (R13). -/
def Flag.bit : Flag → Nat
  | .c => 0
  | .z => 1
  | .i => 2
  | .d => 3
  | .b => 4
  | .u => 5
  | .v => 6
  | .n => 7

/-- The bit of a flag as a byte. -/
def flagMask (f : Flag) : Byte := 1#8 <<< f.bit

/-- Read a flag in a status byte. -/
def getFlag (p : Byte) (f : Flag) : Bool := p.getLsbD f.bit

/-- Write a flag in a status byte; no other bit changes. -/
def setFlag (p : Byte) (f : Flag) (v : Bool) : Byte := if v then p ||| flagMask f else p &&& ~~~ flagMask f

/-- SetNZ(v) (R14) as a change of the status byte. -/
def setNZ (p v : Byte) : Byte := setFlag (setFlag p .n (v.getLsbD 7)) .z (v == 0)

/-- Set N and Z of the register P from a value (R14). -/
def State.setNZ (s : State) (v : Byte) : State := s.setP (Sys2Proof.Machine.setNZ s.p v)

/-- The result of an addition or subtraction: accumulator, C, V, and whether decimal mode charges its extra cycle. -/
structure AluOut where
  res : Byte
  carry : Bool
  overflow : Bool
  extra : Bool
  deriving DecidableEq, Repr

/-- The low digit of a byte. -/
def loDigit (v : Byte) : Nat := v.toNat % 16

/-- The byte with its low digit cleared, `v AND 0xF0`. -/
def hiDigits (v : Byte) : Nat := v.toNat / 16 * 16

/-- `signed(v)` of R124: v - 256 if v >= 128. -/
def signedByte (v : Nat) : Int := if 128 ≤ v then (v : Int) - 256 else (v : Int)

/-- ADC, binary mode (R124). -/
def adcBinary (a m : Byte) (cin : Bool) : AluOut :=
  let sum := a.toNat + m.toNat + cin.toNat
  let res : Byte := BitVec.ofNat 8 sum
  { res := res
    carry := decide (256 ≤ sum)
    overflow := (a.getLsbD 7 == m.getLsbD 7) && (res.getLsbD 7 != a.getLsbD 7)
    extra := false }

/-- ADC, decimal mode (R124): the low digit is corrected first, then the high one. -/
def adcDecimal (a m : Byte) (cin : Bool) : AluOut :=
  let al0 := loDigit a + loDigit m + cin.toNat
  let al := if 0x0A ≤ al0 then (al0 + 0x06) % 16 + 0x10 else al0
  let sum := hiDigits a + hiDigits m + al
  let ss : Int := signedByte (hiDigits a) + signedByte (hiDigits m) + (al : Int)
  let sum2 := if 0xA0 ≤ sum then sum + 0x60 else sum
  { res := BitVec.ofNat 8 sum2
    carry := decide (0x100 ≤ sum2)
    overflow := decide (ss < -128) || decide (127 < ss)
    extra := decide (0xA0 ≤ sum) }

/-- ADC by the mode that P.D selects. -/
def adc (decimal : Bool) (a m : Byte) (cin : Bool) : AluOut :=
  if decimal then adcDecimal a m cin else adcBinary a m cin

/-- The binary part of SBC (R125): A + NOT M + C gives the result, C (no borrow) and V. -/
def sbcBinary (a m : Byte) (cin : Bool) : AluOut :=
  let sum := a.toNat + (m ^^^ 0xFF#8).toNat + cin.toNat
  let res : Byte := BitVec.ofNat 8 sum
  { res := res
    carry := decide (256 ≤ sum)
    overflow := (a.getLsbD 7 != m.getLsbD 7) && (res.getLsbD 7 != a.getLsbD 7)
    extra := false }

/-- SBC, decimal mode (R125): C and V are those of the binary subtraction. -/
def sbcDecimal (a m : Byte) (cin : Bool) : AluOut :=
  let bin := sbcBinary a m cin
  let al : Int := (loDigit a : Int) - loDigit m + cin.toNat - 1
  let r : Int := (a.toNat : Int) - m.toNat + cin.toNat - 1
  let r1 := if r < 0 then r - 0x60 else r
  let r2 := if al < 0 then r1 - 0x06 else r1
  { bin with res := BitVec.ofInt 8 r2, extra := decide (r < 0) }

/-- SBC by the mode that P.D selects. -/
def sbc (decimal : Bool) (a m : Byte) (cin : Bool) : AluOut :=
  if decimal then sbcDecimal a m cin else sbcBinary a m cin

/-- P after an ADC or SBC: C and V from the operation, N and Z from the final accumulator. -/
def aluFlags (p : Byte) (r : AluOut) : Byte := setNZ (setFlag (setFlag p .v r.overflow) .c r.carry) r.res

/-- P after a compare of register `r` with `m` (R135 to R137): C is the unsigned comparison, N bit 7 of the difference. -/
def compareFlags (p r m : Byte) : Byte :=
  setFlag (setFlag (setFlag p .c (decide (m.toNat ≤ r.toNat))) .z (r == m)) .n ((r - m).getLsbD 7)

/-- Z as BIT, TSB and TRB set it (R126 to R128). -/
def testZ (p a m : Byte) : Byte := setFlag p .z ((a &&& m) == 0)

/-- P after a BIT of memory: Z, and N and V from bits 7 and 6 of the operand (R126). -/
def bitFlags (p a m : Byte) : Byte := setFlag (setFlag (testZ p a m) .n (m.getLsbD 7)) .v (m.getLsbD 6)

/-- The result of a shift and the bit shifted out. -/
structure ShiftOut where
  res : Byte
  carry : Bool
  deriving DecidableEq, Repr

/-- R130. -/
def aslOp (v : Byte) (_cin : Bool) : ShiftOut := ⟨v <<< 1, v.getLsbD 7⟩

/-- R131. -/
def lsrOp (v : Byte) (_cin : Bool) : ShiftOut := ⟨v >>> 1, v.getLsbD 0⟩

/-- R132: the old carry enters bit 0. -/
def rolOp (v : Byte) (cin : Bool) : ShiftOut := ⟨(v <<< 1) ||| (if cin then 0x01 else 0x00), v.getLsbD 7⟩

/-- R133: the old carry enters bit 7. -/
def rorOp (v : Byte) (cin : Bool) : ShiftOut := ⟨(v >>> 1) ||| (if cin then 0x80 else 0x00), v.getLsbD 0⟩

/-- P after a shift: C the bit shifted out, N and Z from the result (R130 to R133). -/
def shiftFlags (p : Byte) (r : ShiftOut) : Byte := setNZ (setFlag p .c r.carry) r.res

end Sys2Proof.Machine
end

