-- ==== Sys2Proof/Machine/Ops.lean ====
section
/-! DEFINITION. The shared operations over registers and the stack, taking an exception and returning from one
(spec/10_state.md R16 to R18, spec/60_exceptions.md R272, spec/46_subroutine_interrupt.md R172, R173). -/

namespace Sys2Proof.Machine

/-- The stack address, always in the stack page (R16). -/
def stackAddr (s : State) : Addr := mk16 s.cfg.stackPage s.sp

/-- Push(v) (R17): write at SP, then SP moves down, modulo 256. -/
def push (v : Byte) (s : State) : State :=
  let s1 := memWrite (stackAddr s) v s
  s1.setSp (s1.sp - 1)

/-- Pull() (R18): SP moves up, modulo 256, then read. -/
def pull (s : State) : Byte × State :=
  let s1 := s.setSp (s.sp + 1)
  memRead (stackAddr s1) s1

/-- Push a 16-bit address, high byte first (R170, R173, R272). -/
def push16 (a : Addr) (s : State) : State := push (lo8 a) (push (hi8 a) s)

/-- Pull a 16-bit address, low byte first (R171, R172). -/
def pull16 (s : State) : Addr × State :=
  let lo := pull s
  let hi := pull lo.2
  (mk16 hi.1 lo.1, hi.2)

/-- P after an entry: I set, D cleared only if INT_CLEARS_D (R272 to R274, R173). -/
def entryFlags (cfg : Config) (p : Byte) : Byte :=
  let p1 := setFlag p .i true
  if cfg.intClearsD then setFlag p1 .d false else p1

/-- Taking an exception (R272, R173): the return address and a status byte are pushed, P.I is set, PC is loaded from a
vector pair, 7 cycles are charged. BRK and the two hardware entries differ in what they push. -/
def takeException (ret : Addr) (status : Byte) (vec : Addr) (s : State) : State :=
  let s1 := push status (push16 ret s)
  let s2 := s1.setP (entryFlags s1.cfg s1.p)
  let v := read16 vec s2
  (v.2.setPc v.1).charge 7

/-- InterruptEntry(vec) (R272): the pushed status has bit 5 set and bit 4 clear; P itself keeps its U and B. -/
def interruptEntry (vec : Addr) (s : State) : State :=
  takeException s.pc ((s.p ||| 0x20) &&& 0xEF) vec s

/-- BRK (R173): the return address is the BRK's address plus 2; B and U are set in the register and in the pushed byte. -/
def softwareInterrupt (s : State) : State :=
  let s1 := s.setP (setFlag (setFlag s.p .b true) .u true)
  takeException (s.pc + 1) s1.p s.cfg.vecIrq s1

/-- RTI (R172): P is pulled with bits 5 and 4 cleared, then PC, with no adjustment. -/
def returnFromException (s : State) : State :=
  let st := pull s
  let ret := pull16 (st.2.setP (st.1 &&& 0xCF))
  (ret.2.setPc ret.1).charge 6

end Sys2Proof.Machine
end

