-- ==== Sys2Proof/Syntax.lean ====
section
/-! DEFINITION. The instructions as syntax: one constructor for each mnemonic of spec/opcode_table.json; the
rows that share a mnemonic differ in the addressing form, which is the constructor's argument. -/

namespace Sys2Proof

/-- An addressing mode with its operand bytes (spec/30_encoding.md R76, R81 to R93). The forms imp and rel
have no constructor: an implied instruction has no operand, a branch carries its offset byte. -/
inductive Mode where
  | acc
  | imm (v : Byte)
  | zp (z : Byte)
  | zpx (z : Byte)
  | zpy (z : Byte)
  | zpi (z : Byte)
  | izx (z : Byte)
  | izy (z : Byte)
  | abs (a : Addr)
  | abx (a : Addr)
  | aby (a : Addr)
  | ind (a : Addr)
  | iax (a : Addr)
  deriving DecidableEq, Repr

/-- The mode ids of Table 30-1, without operands. -/
inductive Form where
  | imp | rel | acc | imm | zp | zpx | zpy | zpi | izx | izy | abs | abx | aby | ind | iax
  deriving DecidableEq, Repr

/-- The id of a mode. -/
def Mode.form : Mode → Form
  | .acc => .acc
  | .imm _ => .imm
  | .zp _ => .zp
  | .zpx _ => .zpx
  | .zpy _ => .zpy
  | .zpi _ => .zpi
  | .izx _ => .izx
  | .izy _ => .izy
  | .abs _ => .abs
  | .abx _ => .abx
  | .aby _ => .aby
  | .ind _ => .ind
  | .iax _ => .iax

/-- The instruction set (R2, R100): 64 documented mnemonics and 78 reserved opcodes. -/
inductive Instr where
  -- loads and stores
  | lda (m : Mode)
  | ldx (m : Mode)
  | ldy (m : Mode)
  | sta (m : Mode)
  | stx (m : Mode)
  | sty (m : Mode)
  | stz (m : Mode)
  -- ALU group and bit tests
  | ora (m : Mode)
  | and (m : Mode)
  | eor (m : Mode)
  | adc (m : Mode)
  | sbc (m : Mode)
  | bit (m : Mode)
  | tsb (m : Mode)
  | trb (m : Mode)
  -- shifts and rotates
  | asl (m : Mode)
  | lsr (m : Mode)
  | rol (m : Mode)
  | ror (m : Mode)
  -- compares, increments, decrements
  | cmp (m : Mode)
  | cpx (m : Mode)
  | cpy (m : Mode)
  | inc (m : Mode)
  | dec (m : Mode)
  | inx
  | iny
  | dex
  | dey
  -- branches and jump
  | bpl (rel8 : Byte)
  | bmi (rel8 : Byte)
  | bvc (rel8 : Byte)
  | bvs (rel8 : Byte)
  | bcc (rel8 : Byte)
  | bcs (rel8 : Byte)
  | bne (rel8 : Byte)
  | beq (rel8 : Byte)
  | bra (rel8 : Byte)
  | jmp (m : Mode)
  -- stack
  | pha
  | php
  | phx
  | phy
  | pla
  | plp
  | plx
  | ply
  -- subroutine and interrupt linkage
  | jsr (a : Addr)
  | rts
  | rti
  | brk
  -- transfers, flags, NOP
  | tax
  | txa
  | tay
  | tya
  | tsx
  | txs
  | clc
  | sec
  | cli
  | sei
  | cld
  | sed
  | clv
  | nop
  -- reserved opcodes (R189), named by their opcode byte
  | rsv02
  | rsv03
  | rsv07
  | rsv0B
  | rsv0F
  | rsv13
  | rsv17
  | rsv1B
  | rsv1F
  | rsv22
  | rsv23
  | rsv27
  | rsv2B
  | rsv2F
  | rsv33
  | rsv37
  | rsv3B
  | rsv3F
  | rsv42
  | rsv43
  | rsv44
  | rsv47
  | rsv4B
  | rsv4F
  | rsv53
  | rsv54
  | rsv57
  | rsv5B
  | rsv5C
  | rsv5F
  | rsv62
  | rsv63
  | rsv67
  | rsv6B
  | rsv6F
  | rsv73
  | rsv77
  | rsv7B
  | rsv7F
  | rsv82
  | rsv83
  | rsv87
  | rsv8B
  | rsv8F
  | rsv93
  | rsv97
  | rsv9B
  | rsv9F
  | rsvA3
  | rsvA7
  | rsvAB
  | rsvAF
  | rsvB3
  | rsvB7
  | rsvBB
  | rsvBF
  | rsvC2
  | rsvC3
  | rsvC7
  | rsvCB
  | rsvCF
  | rsvD3
  | rsvD4
  | rsvD7
  | rsvDB
  | rsvDC
  | rsvDF
  | rsvE2
  | rsvE3
  | rsvE7
  | rsvEB
  | rsvEF
  | rsvF3
  | rsvF4
  | rsvF7
  | rsvFB
  | rsvFC
  | rsvFF
  deriving DecidableEq, Repr

end Sys2Proof
end

