-- ==== Sys2Proof/Machine/Operands.lean ====
section
/-! DEFINITION. The addressing modes (spec/30_encoding.md R80 to R95) and their cycle costs (Table 30-3,
spec/70_reset_and_hazards.md R321). The operand bytes are already fetched: they are the mode's arguments, and PC is the
address after the instruction. -/

namespace Sys2Proof.Machine

/-- `Operand(mode)` (R77): the effective address, whether indexing crossed a page, and the state after the pointer
reads. -/
structure Ea where
  addr : Addr
  crossed : Bool
  st : State

/-- R80 to R93. In mode imm the operand is the byte just before PC (R82); the accumulator has no address, and the value
given for acc is used by no instruction. -/
def effAddr (m : Mode) (s : State) : Ea :=
  match m with
  | .acc => ⟨s.pc, false, s⟩
  | .imm _ => ⟨s.pc - 1, false, s⟩
  | .zp z => ⟨zext16 z, false, s⟩
  | .zpx z => ⟨zext16 (z + s.x), false, s⟩
  | .zpy z => ⟨zext16 (z + s.y), false, s⟩
  | .zpi z =>
    let r := read16zp z s
    ⟨r.1, false, r.2⟩
  | .izx z =>
    let r := read16zp (z + s.x) s
    ⟨r.1, false, r.2⟩
  | .izy z =>
    let r := read16zp z s
    let ea := r.1 + zext16 s.y
    ⟨ea, pageCross r.1 ea, r.2⟩
  | .abs a => ⟨a, false, s⟩
  | .abx a => ⟨a + zext16 s.x, pageCross a (a + zext16 s.x), s⟩
  | .aby a => ⟨a + zext16 s.y, pageCross a (a + zext16 s.y), s⟩
  | .ind a =>
    let r := read16 a s
    ⟨r.1, false, r.2⟩
  | .iax a =>
    let r := read16 (a + zext16 s.x) s
    ⟨r.1, false, r.2⟩

/-- An operand that has been read: its value, whether indexing crossed a page, and the state after the read. -/
structure Operand where
  val : Byte
  crossed : Bool
  st : State

/-- The operand of an instruction that reads. In mode imm the operand fetch was the data read (R82); in mode acc no Bus
access is made (R81). -/
def readOperand (m : Mode) (s : State) : Operand :=
  match m with
  | .imm v => ⟨v, false, s⟩
  | .acc => ⟨s.a, false, s⟩
  | m =>
    let e := effAddr m s
    let r := memRead e.addr e.st
    ⟨r.1, e.crossed, r.2⟩

/-- A store: the address is computed, then one write is made and nothing is read at it (R113). -/
def storeOperand (m : Mode) (v : Byte) (s : State) : State :=
  let e := effAddr m s
  memWrite e.addr v e.st

/-- One cycle more when indexing crossed a page. -/
def crossing (crossed : Bool) : Nat := if crossed then 1 else 0

/-- Table 30-3 for the instructions that only read: `+p` for abx, aby and izy. The forms they do not have cost 0. -/
def readCycles (m : Mode) (crossed : Bool) : Nat :=
  match m with
  | .imm _ => 2
  | .zp _ => 3
  | .zpx _ => 4
  | .zpy _ => 4
  | .zpi _ => 5
  | .izx _ => 6
  | .izy _ => 5 + crossing crossed
  | .abs _ => 4
  | .abx _ => 4 + crossing crossed
  | .aby _ => 4 + crossing crossed
  | _ => 0

/-- Table 30-3 for the stores: no page-crossing penalty (R113 to R116). -/
def storeCycles (m : Mode) : Nat :=
  match m with
  | .zp _ => 3
  | .zpx _ => 4
  | .zpy _ => 4
  | .zpi _ => 5
  | .izx _ => 6
  | .izy _ => 6
  | .abs _ => 4
  | .abx _ => 5
  | .aby _ => 5
  | _ => 0

/-- Table 30-3 for ASL, LSR, ROL, ROR, TSB and TRB: `+p` for abx. -/
def shiftCycles (m : Mode) (crossed : Bool) : Nat :=
  match m with
  | .acc => 2
  | .zp _ => 5
  | .zpx _ => 6
  | .abs _ => 6
  | .abx _ => 6 + crossing crossed
  | _ => 0

/-- Table 30-3 for INC and DEC: 7 for abx, crossing or not (R138). -/
def incCycles (m : Mode) : Nat :=
  match m with
  | .acc => 2
  | .zp _ => 5
  | .zpx _ => 6
  | .abs _ => 6
  | .abx _ => 7
  | _ => 0

/-- Table 30-3 for JMP. -/
def jumpCycles (m : Mode) : Nat :=
  match m with
  | .abs _ => 3
  | .ind _ => 6
  | .iax _ => 6
  | _ => 0

/-- A read-modify-write (R50, R52): the accumulator, or one read then one write of the same byte. `f` gives the result
and the new status byte from the operand; `cycles` the cost from the page crossing. -/
def modifyOperand (m : Mode) (f : Byte → Byte × Byte) (cycles : Bool → Nat) (s : State) : State :=
  match m with
  | .acc =>
    let r := f s.a
    ((s.setP r.2).setA r.1).charge (cycles false)
  | m =>
    let e := effAddr m s
    let o := memRead e.addr e.st
    let r := f o.1
    (memWrite e.addr r.1 (o.2.setP r.2)).charge (cycles e.crossed)

end Sys2Proof.Machine
end

