-- ==== Sys2Proof/Machine/Alu.lean ====
section
/-! DEFINITION. ALU group and bit tests (spec/41_alu_logic.md). -/

namespace Sys2Proof.Machine

/-- ORA, AND and EOR but for their operation: A from A and the operand, N and Z from the result. -/
def logicOp (f : Byte → Byte → Byte) (m : Mode) (s : State) : State :=
  let r := readOperand m s
  let v := f r.st.a r.val
  ((r.st.setA v).setNZ v).charge (readCycles m r.crossed)

/-- ADC and SBC but for their operation; the extra cycle is the decimal one (R321). -/
def arithOp (f : Bool → Byte → Byte → Bool → AluOut) (m : Mode) (s : State) : State :=
  let r := readOperand m s
  let o := f (getFlag r.st.p .d) r.st.a r.val (getFlag r.st.p .c)
  ((r.st.setA o.res).setP (aluFlags r.st.p o)).charge (readCycles m r.crossed + crossing o.extra)

/-- ORA (R121). -/
def execOra (m : Mode) (s : State) : Result := .next (logicOp (· ||| ·) m s)

/-- AND (R122). -/
def execAnd (m : Mode) (s : State) : Result := .next (logicOp (· &&& ·) m s)

/-- EOR (R123). -/
def execEor (m : Mode) (s : State) : Result := .next (logicOp (· ^^^ ·) m s)

/-- ADC (R124). -/
def execAdc (m : Mode) (s : State) : Result := .next (arithOp adc m s)

/-- SBC (R125). -/
def execSbc (m : Mode) (s : State) : Result := .next (arithOp sbc m s)

/-- BIT (R126): the immediate form changes Z only. -/
def execBit (m : Mode) (s : State) : Result :=
  let r := readOperand m s
  let p := if m.form = .imm then testZ r.st.p r.st.a r.val else bitFlags r.st.p r.st.a r.val
  .next ((r.st.setP p).charge (readCycles m r.crossed))

/-- TSB (R127): Z from the operand before the write. -/
def execTsb (m : Mode) (s : State) : Result :=
  .next (modifyOperand m (fun v => (v ||| s.a, testZ s.p s.a v)) (shiftCycles m) s)

/-- TRB (R128). -/
def execTrb (m : Mode) (s : State) : Result :=
  .next (modifyOperand m (fun v => (v &&& ~~~ s.a, testZ s.p s.a v)) (shiftCycles m) s)

end Sys2Proof.Machine
end

