-- ==== Sys2Proof/Machine/Branch.lean ====
section
/-! DEFINITION. Branches and jump (spec/44_branch_jump.md). -/

namespace Sys2Proof.Machine

/-- The common rule of the nine relative branches (R145): the offset is already fetched, so PC is the address of the next
instruction. -/
def branch (cond : Bool) (rel8 : Byte) (s : State) : State :=
  let target := s.pc + sext16 rel8
  if cond then (s.setPc target).charge (3 + crossing (pageCross s.pc target)) else s.charge 2

/-- BPL (R146). -/
def execBpl (rel8 : Byte) (s : State) : Result := .next (branch (!getFlag s.p .n) rel8 s)

/-- BMI (R147). -/
def execBmi (rel8 : Byte) (s : State) : Result := .next (branch (getFlag s.p .n) rel8 s)

/-- BVC (R148). -/
def execBvc (rel8 : Byte) (s : State) : Result := .next (branch (!getFlag s.p .v) rel8 s)

/-- BVS (R149). -/
def execBvs (rel8 : Byte) (s : State) : Result := .next (branch (getFlag s.p .v) rel8 s)

/-- BCC (R150). -/
def execBcc (rel8 : Byte) (s : State) : Result := .next (branch (!getFlag s.p .c) rel8 s)

/-- BCS (R151). -/
def execBcs (rel8 : Byte) (s : State) : Result := .next (branch (getFlag s.p .c) rel8 s)

/-- BNE (R152). -/
def execBne (rel8 : Byte) (s : State) : Result := .next (branch (!getFlag s.p .z) rel8 s)

/-- BEQ (R153). -/
def execBeq (rel8 : Byte) (s : State) : Result := .next (branch (getFlag s.p .z) rel8 s)

/-- BRA (R154). -/
def execBra (rel8 : Byte) (s : State) : Result := .next (branch true rel8 s)

/-- JMP (R155): nothing is pushed. -/
def execJmp (m : Mode) (s : State) : Result :=
  let e := effAddr m s
  .next ((e.st.setPc e.addr).charge (jumpCycles m))

end Sys2Proof.Machine
end

