-- ==== Sys2Proof/Machine/CompareIncDec.lean ====
section
/-! DEFINITION. Compares, increments and decrements (spec/43_compare_incdec.md). -/

namespace Sys2Proof.Machine

/-- A compare of a register (R135 to R137): subtract without storing. -/
def compareOp (reg : State → Byte) (m : Mode) (s : State) : State :=
  let r := readOperand m s
  (r.st.setP (compareFlags r.st.p (reg r.st) r.val)).charge (readCycles m r.crossed)

/-- CMP (R135). -/
def execCmp (m : Mode) (s : State) : Result := .next (compareOp State.a m s)

/-- CPX (R136). -/
def execCpx (m : Mode) (s : State) : Result := .next (compareOp State.x m s)

/-- CPY (R137). -/
def execCpy (m : Mode) (s : State) : Result := .next (compareOp State.y m s)

/-- INC (R138). -/
def execInc (m : Mode) (s : State) : Result :=
  .next (modifyOperand m (fun v => (v + 1, setNZ s.p (v + 1))) (fun _ => incCycles m) s)

/-- DEC (R139). -/
def execDec (m : Mode) (s : State) : Result :=
  .next (modifyOperand m (fun v => (v - 1, setNZ s.p (v - 1))) (fun _ => incCycles m) s)

/-- INX (R140). -/
def execInx (s : State) : Result := .next (((s.setX (s.x + 1)).setNZ (s.x + 1)).charge 2)

/-- INY (R141). -/
def execIny (s : State) : Result := .next (((s.setY (s.y + 1)).setNZ (s.y + 1)).charge 2)

/-- DEX (R142). -/
def execDex (s : State) : Result := .next (((s.setX (s.x - 1)).setNZ (s.x - 1)).charge 2)

/-- DEY (R143). -/
def execDey (s : State) : Result := .next (((s.setY (s.y - 1)).setNZ (s.y - 1)).charge 2)

end Sys2Proof.Machine
end

