-- ==== Sys2Proof/Machine/Linkage.lean ====
section
/-! DEFINITION. Subroutine and interrupt linkage (spec/46_subroutine_interrupt.md). -/

namespace Sys2Proof.Machine

/-- JSR (R170): the address of the instruction's last byte is pushed. -/
def execJsr (a : Addr) (s : State) : Result := .next (((push16 (s.pc - 1) s).setPc a).charge 6)

/-- RTS (R171). -/
def execRts (s : State) : Result :=
  let r := pull16 s
  .next ((r.2.setPc (r.1 + 1)).charge 6)

/-- RTI (R172). -/
def execRti (s : State) : Result := .next (returnFromException s)

/-- BRK (R173): the software interrupt. -/
def execBrk (s : State) : Result := .next (softwareInterrupt s)

end Sys2Proof.Machine
end

