-- ==== Sys2Proof/Machine/LoadStore.lean ====
section
/-! DEFINITION. Loads and stores (spec/40_load_store.md). -/

namespace Sys2Proof.Machine

/-- LDA (R110): A from memory, N and Z from the loaded byte. -/
def execLda (m : Mode) (s : State) : Result :=
  let r := readOperand m s
  .next (((r.st.setA r.val).setNZ r.val).charge (readCycles m r.crossed))

/-- LDX (R111). -/
def execLdx (m : Mode) (s : State) : Result :=
  let r := readOperand m s
  .next (((r.st.setX r.val).setNZ r.val).charge (readCycles m r.crossed))

/-- LDY (R112). -/
def execLdy (m : Mode) (s : State) : Result :=
  let r := readOperand m s
  .next (((r.st.setY r.val).setNZ r.val).charge (readCycles m r.crossed))

/-- STA (R113): no flag changes. -/
def execSta (m : Mode) (s : State) : Result := .next ((storeOperand m s.a s).charge (storeCycles m))

/-- STX (R114). -/
def execStx (m : Mode) (s : State) : Result := .next ((storeOperand m s.x s).charge (storeCycles m))

/-- STY (R115). -/
def execSty (m : Mode) (s : State) : Result := .next ((storeOperand m s.y s).charge (storeCycles m))

/-- STZ (R116). -/
def execStz (m : Mode) (s : State) : Result := .next ((storeOperand m 0x00 s).charge (storeCycles m))

end Sys2Proof.Machine
end

