-- ==== Sys2Proof/Machine/Reserved.lean ====
section
/-! DEFINITION. The 78 reserved opcodes (spec/47_transfer_flag_nop.md R189, Table 47-1). -/

namespace Sys2Proof.Machine

/-- A reserved opcode (R189): PC moves past the skipped bytes, which are not read; nothing else changes. -/
def reservedNop (op : Byte) (s : State) : State :=
  let r := reservedRow s.cfg.reservedTable op
  (s.setPc (s.pc + BitVec.ofNat 16 r.skip.val)).charge r.cycles

/-- Opcode 0x02 (R189). -/
def execRsv02 (s : State) : Result := .next (reservedNop 0x02 s)

/-- Opcode 0x03 (R189). -/
def execRsv03 (s : State) : Result := .next (reservedNop 0x03 s)

/-- Opcode 0x07 (R189). -/
def execRsv07 (s : State) : Result := .next (reservedNop 0x07 s)

/-- Opcode 0x0B (R189). -/
def execRsv0B (s : State) : Result := .next (reservedNop 0x0B s)

/-- Opcode 0x0F (R189). -/
def execRsv0F (s : State) : Result := .next (reservedNop 0x0F s)

/-- Opcode 0x13 (R189). -/
def execRsv13 (s : State) : Result := .next (reservedNop 0x13 s)

/-- Opcode 0x17 (R189). -/
def execRsv17 (s : State) : Result := .next (reservedNop 0x17 s)

/-- Opcode 0x1B (R189). -/
def execRsv1B (s : State) : Result := .next (reservedNop 0x1B s)

/-- Opcode 0x1F (R189). -/
def execRsv1F (s : State) : Result := .next (reservedNop 0x1F s)

/-- Opcode 0x22 (R189). -/
def execRsv22 (s : State) : Result := .next (reservedNop 0x22 s)

/-- Opcode 0x23 (R189). -/
def execRsv23 (s : State) : Result := .next (reservedNop 0x23 s)

/-- Opcode 0x27 (R189). -/
def execRsv27 (s : State) : Result := .next (reservedNop 0x27 s)

/-- Opcode 0x2B (R189). -/
def execRsv2B (s : State) : Result := .next (reservedNop 0x2B s)

/-- Opcode 0x2F (R189). -/
def execRsv2F (s : State) : Result := .next (reservedNop 0x2F s)

/-- Opcode 0x33 (R189). -/
def execRsv33 (s : State) : Result := .next (reservedNop 0x33 s)

/-- Opcode 0x37 (R189). -/
def execRsv37 (s : State) : Result := .next (reservedNop 0x37 s)

/-- Opcode 0x3B (R189). -/
def execRsv3B (s : State) : Result := .next (reservedNop 0x3B s)

/-- Opcode 0x3F (R189). -/
def execRsv3F (s : State) : Result := .next (reservedNop 0x3F s)

/-- Opcode 0x42 (R189). -/
def execRsv42 (s : State) : Result := .next (reservedNop 0x42 s)

/-- Opcode 0x43 (R189). -/
def execRsv43 (s : State) : Result := .next (reservedNop 0x43 s)

/-- Opcode 0x44 (R189). -/
def execRsv44 (s : State) : Result := .next (reservedNop 0x44 s)

/-- Opcode 0x47 (R189). -/
def execRsv47 (s : State) : Result := .next (reservedNop 0x47 s)

/-- Opcode 0x4B (R189). -/
def execRsv4B (s : State) : Result := .next (reservedNop 0x4B s)

/-- Opcode 0x4F (R189). -/
def execRsv4F (s : State) : Result := .next (reservedNop 0x4F s)

/-- Opcode 0x53 (R189). -/
def execRsv53 (s : State) : Result := .next (reservedNop 0x53 s)

/-- Opcode 0x54 (R189). -/
def execRsv54 (s : State) : Result := .next (reservedNop 0x54 s)

/-- Opcode 0x57 (R189). -/
def execRsv57 (s : State) : Result := .next (reservedNop 0x57 s)

/-- Opcode 0x5B (R189). -/
def execRsv5B (s : State) : Result := .next (reservedNop 0x5B s)

/-- Opcode 0x5C (R189). -/
def execRsv5C (s : State) : Result := .next (reservedNop 0x5C s)

/-- Opcode 0x5F (R189). -/
def execRsv5F (s : State) : Result := .next (reservedNop 0x5F s)

/-- Opcode 0x62 (R189). -/
def execRsv62 (s : State) : Result := .next (reservedNop 0x62 s)

/-- Opcode 0x63 (R189). -/
def execRsv63 (s : State) : Result := .next (reservedNop 0x63 s)

/-- Opcode 0x67 (R189). -/
def execRsv67 (s : State) : Result := .next (reservedNop 0x67 s)

/-- Opcode 0x6B (R189). -/
def execRsv6B (s : State) : Result := .next (reservedNop 0x6B s)

/-- Opcode 0x6F (R189). -/
def execRsv6F (s : State) : Result := .next (reservedNop 0x6F s)

/-- Opcode 0x73 (R189). -/
def execRsv73 (s : State) : Result := .next (reservedNop 0x73 s)

/-- Opcode 0x77 (R189). -/
def execRsv77 (s : State) : Result := .next (reservedNop 0x77 s)

/-- Opcode 0x7B (R189). -/
def execRsv7B (s : State) : Result := .next (reservedNop 0x7B s)

/-- Opcode 0x7F (R189). -/
def execRsv7F (s : State) : Result := .next (reservedNop 0x7F s)

/-- Opcode 0x82 (R189). -/
def execRsv82 (s : State) : Result := .next (reservedNop 0x82 s)

/-- Opcode 0x83 (R189). -/
def execRsv83 (s : State) : Result := .next (reservedNop 0x83 s)

/-- Opcode 0x87 (R189). -/
def execRsv87 (s : State) : Result := .next (reservedNop 0x87 s)

/-- Opcode 0x8B (R189). -/
def execRsv8B (s : State) : Result := .next (reservedNop 0x8B s)

/-- Opcode 0x8F (R189). -/
def execRsv8F (s : State) : Result := .next (reservedNop 0x8F s)

/-- Opcode 0x93 (R189). -/
def execRsv93 (s : State) : Result := .next (reservedNop 0x93 s)

/-- Opcode 0x97 (R189). -/
def execRsv97 (s : State) : Result := .next (reservedNop 0x97 s)

/-- Opcode 0x9B (R189). -/
def execRsv9B (s : State) : Result := .next (reservedNop 0x9B s)

/-- Opcode 0x9F (R189). -/
def execRsv9F (s : State) : Result := .next (reservedNop 0x9F s)

/-- Opcode 0xA3 (R189). -/
def execRsvA3 (s : State) : Result := .next (reservedNop 0xA3 s)

/-- Opcode 0xA7 (R189). -/
def execRsvA7 (s : State) : Result := .next (reservedNop 0xA7 s)

/-- Opcode 0xAB (R189). -/
def execRsvAB (s : State) : Result := .next (reservedNop 0xAB s)

/-- Opcode 0xAF (R189). -/
def execRsvAF (s : State) : Result := .next (reservedNop 0xAF s)

/-- Opcode 0xB3 (R189). -/
def execRsvB3 (s : State) : Result := .next (reservedNop 0xB3 s)

/-- Opcode 0xB7 (R189). -/
def execRsvB7 (s : State) : Result := .next (reservedNop 0xB7 s)

/-- Opcode 0xBB (R189). -/
def execRsvBB (s : State) : Result := .next (reservedNop 0xBB s)

/-- Opcode 0xBF (R189). -/
def execRsvBF (s : State) : Result := .next (reservedNop 0xBF s)

/-- Opcode 0xC2 (R189). -/
def execRsvC2 (s : State) : Result := .next (reservedNop 0xC2 s)

/-- Opcode 0xC3 (R189). -/
def execRsvC3 (s : State) : Result := .next (reservedNop 0xC3 s)

/-- Opcode 0xC7 (R189). -/
def execRsvC7 (s : State) : Result := .next (reservedNop 0xC7 s)

/-- Opcode 0xCB (R189). -/
def execRsvCB (s : State) : Result := .next (reservedNop 0xCB s)

/-- Opcode 0xCF (R189). -/
def execRsvCF (s : State) : Result := .next (reservedNop 0xCF s)

/-- Opcode 0xD3 (R189). -/
def execRsvD3 (s : State) : Result := .next (reservedNop 0xD3 s)

/-- Opcode 0xD4 (R189). -/
def execRsvD4 (s : State) : Result := .next (reservedNop 0xD4 s)

/-- Opcode 0xD7 (R189). -/
def execRsvD7 (s : State) : Result := .next (reservedNop 0xD7 s)

/-- Opcode 0xDB (R189). -/
def execRsvDB (s : State) : Result := .next (reservedNop 0xDB s)

/-- Opcode 0xDC (R189). -/
def execRsvDC (s : State) : Result := .next (reservedNop 0xDC s)

/-- Opcode 0xDF (R189). -/
def execRsvDF (s : State) : Result := .next (reservedNop 0xDF s)

/-- Opcode 0xE2 (R189). -/
def execRsvE2 (s : State) : Result := .next (reservedNop 0xE2 s)

/-- Opcode 0xE3 (R189). -/
def execRsvE3 (s : State) : Result := .next (reservedNop 0xE3 s)

/-- Opcode 0xE7 (R189). -/
def execRsvE7 (s : State) : Result := .next (reservedNop 0xE7 s)

/-- Opcode 0xEB (R189). -/
def execRsvEB (s : State) : Result := .next (reservedNop 0xEB s)

/-- Opcode 0xEF (R189). -/
def execRsvEF (s : State) : Result := .next (reservedNop 0xEF s)

/-- Opcode 0xF3 (R189). -/
def execRsvF3 (s : State) : Result := .next (reservedNop 0xF3 s)

/-- Opcode 0xF4 (R189). -/
def execRsvF4 (s : State) : Result := .next (reservedNop 0xF4 s)

/-- Opcode 0xF7 (R189). -/
def execRsvF7 (s : State) : Result := .next (reservedNop 0xF7 s)

/-- Opcode 0xFB (R189). -/
def execRsvFB (s : State) : Result := .next (reservedNop 0xFB s)

/-- Opcode 0xFC (R189). -/
def execRsvFC (s : State) : Result := .next (reservedNop 0xFC s)

/-- Opcode 0xFF (R189). -/
def execRsvFF (s : State) : Result := .next (reservedNop 0xFF s)

end Sys2Proof.Machine
end

