-- ==== Sys2Proof/Machine/Shift.lean ====
section
/-! DEFINITION. Shifts and rotates (spec/42_shift_rotate.md). -/

namespace Sys2Proof.Machine

/-- The four shifts but for their operation. -/
def shiftBy (f : Byte → Bool → ShiftOut) (m : Mode) (s : State) : State :=
  modifyOperand m (fun v => ((f v (getFlag s.p .c)).res, shiftFlags s.p (f v (getFlag s.p .c)))) (shiftCycles m) s

/-- ASL (R130). -/
def execAsl (m : Mode) (s : State) : Result := .next (shiftBy aslOp m s)

/-- LSR (R131). -/
def execLsr (m : Mode) (s : State) : Result := .next (shiftBy lsrOp m s)

/-- ROL (R132). -/
def execRol (m : Mode) (s : State) : Result := .next (shiftBy rolOp m s)

/-- ROR (R133). -/
def execRor (m : Mode) (s : State) : Result := .next (shiftBy rorOp m s)

end Sys2Proof.Machine
end

