-- ==== Sys2Proof/Machine/Stack.lean ====
section
/-! DEFINITION. Stack operations (spec/45_stack.md). -/

namespace Sys2Proof.Machine

/-- PHA (R160). -/
def execPha (s : State) : Result := .next ((push s.a s).charge 3)

/-- PHP (R161): bit 5 of the pushed byte is forced to 1, bit 4 is as stored. -/
def execPhp (s : State) : Result := .next ((push (s.p ||| 0x20) s).charge 3)

/-- PHX (R162). -/
def execPhx (s : State) : Result := .next ((push s.x s).charge 3)

/-- PHY (R163). -/
def execPhy (s : State) : Result := .next ((push s.y s).charge 3)

/-- PLA (R164). -/
def execPla (s : State) : Result :=
  let r := pull s
  .next (((r.2.setA r.1).setNZ r.1).charge 4)

/-- PLP (R165): all eight bits as pulled. -/
def execPlp (s : State) : Result :=
  let r := pull s
  .next ((r.2.setP r.1).charge 4)

/-- PLX (R166). -/
def execPlx (s : State) : Result :=
  let r := pull s
  .next (((r.2.setX r.1).setNZ r.1).charge 4)

/-- PLY (R167). -/
def execPly (s : State) : Result :=
  let r := pull s
  .next (((r.2.setY r.1).setNZ r.1).charge 4)

end Sys2Proof.Machine
end

