-- ==== Sys2Proof/Machine/Transfer.lean ====
section
/-! DEFINITION. Register transfers, flag instructions and NOP (spec/47_transfer_flag_nop.md, sections 1 to 3). -/

namespace Sys2Proof.Machine

/-- TAX (R175). -/
def execTax (s : State) : Result := .next (((s.setX s.a).setNZ s.a).charge 2)

/-- TXA (R176). -/
def execTxa (s : State) : Result := .next (((s.setA s.x).setNZ s.x).charge 2)

/-- TAY (R177). -/
def execTay (s : State) : Result := .next (((s.setY s.a).setNZ s.a).charge 2)

/-- TYA (R178). -/
def execTya (s : State) : Result := .next (((s.setA s.y).setNZ s.y).charge 2)

/-- TSX (R179). -/
def execTsx (s : State) : Result := .next (((s.setX s.sp).setNZ s.sp).charge 2)

/-- TXS (R180): the one transfer that leaves N and Z alone. -/
def execTxs (s : State) : Result := .next ((s.setSp s.x).charge 2)

/-- One flag set or cleared, 2 cycles (R181 to R187). -/
def writeFlag (f : Flag) (v : Bool) (s : State) : State := (s.setP (setFlag s.p f v)).charge 2

/-- CLC (R181). -/
def execClc (s : State) : Result := .next (writeFlag .c false s)

/-- SEC (R182). -/
def execSec (s : State) : Result := .next (writeFlag .c true s)

/-- CLI (R183). -/
def execCli (s : State) : Result := .next (writeFlag .i false s)

/-- SEI (R184). -/
def execSei (s : State) : Result := .next (writeFlag .i true s)

/-- CLD (R185). -/
def execCld (s : State) : Result := .next (writeFlag .d false s)

/-- SED (R186). -/
def execSed (s : State) : Result := .next (writeFlag .d true s)

/-- CLV (R187). -/
def execClv (s : State) : Result := .next (writeFlag .v false s)

/-- NOP (R188). -/
def execNop (s : State) : Result := .next (s.charge 2)

end Sys2Proof.Machine
end

