-- ==== Sys2Proof/Machine/Dispatch.lean ====
section
/-! DEFINITION. The dispatch of an instruction to its meaning. -/

namespace Sys2Proof.Machine

def exec (i : Instr) (s : State) : Host.Outcome State Fault Refusal :=
  match i with
  -- loads and stores
  | .lda m => Sys2Proof.Machine.execLda m s
  | .ldx m => Sys2Proof.Machine.execLdx m s
  | .ldy m => Sys2Proof.Machine.execLdy m s
  | .sta m => Sys2Proof.Machine.execSta m s
  | .stx m => Sys2Proof.Machine.execStx m s
  | .sty m => Sys2Proof.Machine.execSty m s
  | .stz m => Sys2Proof.Machine.execStz m s
  -- ALU group and bit tests
  | .ora m => Sys2Proof.Machine.execOra m s
  | .and m => Sys2Proof.Machine.execAnd m s
  | .eor m => Sys2Proof.Machine.execEor m s
  | .adc m => Sys2Proof.Machine.execAdc m s
  | .sbc m => Sys2Proof.Machine.execSbc m s
  | .bit m => Sys2Proof.Machine.execBit m s
  | .tsb m => Sys2Proof.Machine.execTsb m s
  | .trb m => Sys2Proof.Machine.execTrb m s
  -- shifts and rotates
  | .asl m => Sys2Proof.Machine.execAsl m s
  | .lsr m => Sys2Proof.Machine.execLsr m s
  | .rol m => Sys2Proof.Machine.execRol m s
  | .ror m => Sys2Proof.Machine.execRor m s
  -- compares, increments, decrements
  | .cmp m => Sys2Proof.Machine.execCmp m s
  | .cpx m => Sys2Proof.Machine.execCpx m s
  | .cpy m => Sys2Proof.Machine.execCpy m s
  | .inc m => Sys2Proof.Machine.execInc m s
  | .dec m => Sys2Proof.Machine.execDec m s
  | .inx => Sys2Proof.Machine.execInx s
  | .iny => Sys2Proof.Machine.execIny s
  | .dex => Sys2Proof.Machine.execDex s
  | .dey => Sys2Proof.Machine.execDey s
  -- branches and jump
  | .bpl rel8 => Sys2Proof.Machine.execBpl rel8 s
  | .bmi rel8 => Sys2Proof.Machine.execBmi rel8 s
  | .bvc rel8 => Sys2Proof.Machine.execBvc rel8 s
  | .bvs rel8 => Sys2Proof.Machine.execBvs rel8 s
  | .bcc rel8 => Sys2Proof.Machine.execBcc rel8 s
  | .bcs rel8 => Sys2Proof.Machine.execBcs rel8 s
  | .bne rel8 => Sys2Proof.Machine.execBne rel8 s
  | .beq rel8 => Sys2Proof.Machine.execBeq rel8 s
  | .bra rel8 => Sys2Proof.Machine.execBra rel8 s
  | .jmp m => Sys2Proof.Machine.execJmp m s
  -- stack
  | .pha => Sys2Proof.Machine.execPha s
  | .php => Sys2Proof.Machine.execPhp s
  | .phx => Sys2Proof.Machine.execPhx s
  | .phy => Sys2Proof.Machine.execPhy s
  | .pla => Sys2Proof.Machine.execPla s
  | .plp => Sys2Proof.Machine.execPlp s
  | .plx => Sys2Proof.Machine.execPlx s
  | .ply => Sys2Proof.Machine.execPly s
  -- subroutine and interrupt linkage
  | .jsr a => Sys2Proof.Machine.execJsr a s
  | .rts => Sys2Proof.Machine.execRts s
  | .rti => Sys2Proof.Machine.execRti s
  | .brk => Sys2Proof.Machine.execBrk s
  -- transfers, flags, NOP
  | .tax => Sys2Proof.Machine.execTax s
  | .txa => Sys2Proof.Machine.execTxa s
  | .tay => Sys2Proof.Machine.execTay s
  | .tya => Sys2Proof.Machine.execTya s
  | .tsx => Sys2Proof.Machine.execTsx s
  | .txs => Sys2Proof.Machine.execTxs s
  | .clc => Sys2Proof.Machine.execClc s
  | .sec => Sys2Proof.Machine.execSec s
  | .cli => Sys2Proof.Machine.execCli s
  | .sei => Sys2Proof.Machine.execSei s
  | .cld => Sys2Proof.Machine.execCld s
  | .sed => Sys2Proof.Machine.execSed s
  | .clv => Sys2Proof.Machine.execClv s
  | .nop => Sys2Proof.Machine.execNop s
  -- reserved opcodes (R189), named by their opcode byte
  | .rsv02 => Sys2Proof.Machine.execRsv02 s
  | .rsv03 => Sys2Proof.Machine.execRsv03 s
  | .rsv07 => Sys2Proof.Machine.execRsv07 s
  | .rsv0B => Sys2Proof.Machine.execRsv0B s
  | .rsv0F => Sys2Proof.Machine.execRsv0F s
  | .rsv13 => Sys2Proof.Machine.execRsv13 s
  | .rsv17 => Sys2Proof.Machine.execRsv17 s
  | .rsv1B => Sys2Proof.Machine.execRsv1B s
  | .rsv1F => Sys2Proof.Machine.execRsv1F s
  | .rsv22 => Sys2Proof.Machine.execRsv22 s
  | .rsv23 => Sys2Proof.Machine.execRsv23 s
  | .rsv27 => Sys2Proof.Machine.execRsv27 s
  | .rsv2B => Sys2Proof.Machine.execRsv2B s
  | .rsv2F => Sys2Proof.Machine.execRsv2F s
  | .rsv33 => Sys2Proof.Machine.execRsv33 s
  | .rsv37 => Sys2Proof.Machine.execRsv37 s
  | .rsv3B => Sys2Proof.Machine.execRsv3B s
  | .rsv3F => Sys2Proof.Machine.execRsv3F s
  | .rsv42 => Sys2Proof.Machine.execRsv42 s
  | .rsv43 => Sys2Proof.Machine.execRsv43 s
  | .rsv44 => Sys2Proof.Machine.execRsv44 s
  | .rsv47 => Sys2Proof.Machine.execRsv47 s
  | .rsv4B => Sys2Proof.Machine.execRsv4B s
  | .rsv4F => Sys2Proof.Machine.execRsv4F s
  | .rsv53 => Sys2Proof.Machine.execRsv53 s
  | .rsv54 => Sys2Proof.Machine.execRsv54 s
  | .rsv57 => Sys2Proof.Machine.execRsv57 s
  | .rsv5B => Sys2Proof.Machine.execRsv5B s
  | .rsv5C => Sys2Proof.Machine.execRsv5C s
  | .rsv5F => Sys2Proof.Machine.execRsv5F s
  | .rsv62 => Sys2Proof.Machine.execRsv62 s
  | .rsv63 => Sys2Proof.Machine.execRsv63 s
  | .rsv67 => Sys2Proof.Machine.execRsv67 s
  | .rsv6B => Sys2Proof.Machine.execRsv6B s
  | .rsv6F => Sys2Proof.Machine.execRsv6F s
  | .rsv73 => Sys2Proof.Machine.execRsv73 s
  | .rsv77 => Sys2Proof.Machine.execRsv77 s
  | .rsv7B => Sys2Proof.Machine.execRsv7B s
  | .rsv7F => Sys2Proof.Machine.execRsv7F s
  | .rsv82 => Sys2Proof.Machine.execRsv82 s
  | .rsv83 => Sys2Proof.Machine.execRsv83 s
  | .rsv87 => Sys2Proof.Machine.execRsv87 s
  | .rsv8B => Sys2Proof.Machine.execRsv8B s
  | .rsv8F => Sys2Proof.Machine.execRsv8F s
  | .rsv93 => Sys2Proof.Machine.execRsv93 s
  | .rsv97 => Sys2Proof.Machine.execRsv97 s
  | .rsv9B => Sys2Proof.Machine.execRsv9B s
  | .rsv9F => Sys2Proof.Machine.execRsv9F s
  | .rsvA3 => Sys2Proof.Machine.execRsvA3 s
  | .rsvA7 => Sys2Proof.Machine.execRsvA7 s
  | .rsvAB => Sys2Proof.Machine.execRsvAB s
  | .rsvAF => Sys2Proof.Machine.execRsvAF s
  | .rsvB3 => Sys2Proof.Machine.execRsvB3 s
  | .rsvB7 => Sys2Proof.Machine.execRsvB7 s
  | .rsvBB => Sys2Proof.Machine.execRsvBB s
  | .rsvBF => Sys2Proof.Machine.execRsvBF s
  | .rsvC2 => Sys2Proof.Machine.execRsvC2 s
  | .rsvC3 => Sys2Proof.Machine.execRsvC3 s
  | .rsvC7 => Sys2Proof.Machine.execRsvC7 s
  | .rsvCB => Sys2Proof.Machine.execRsvCB s
  | .rsvCF => Sys2Proof.Machine.execRsvCF s
  | .rsvD3 => Sys2Proof.Machine.execRsvD3 s
  | .rsvD4 => Sys2Proof.Machine.execRsvD4 s
  | .rsvD7 => Sys2Proof.Machine.execRsvD7 s
  | .rsvDB => Sys2Proof.Machine.execRsvDB s
  | .rsvDC => Sys2Proof.Machine.execRsvDC s
  | .rsvDF => Sys2Proof.Machine.execRsvDF s
  | .rsvE2 => Sys2Proof.Machine.execRsvE2 s
  | .rsvE3 => Sys2Proof.Machine.execRsvE3 s
  | .rsvE7 => Sys2Proof.Machine.execRsvE7 s
  | .rsvEB => Sys2Proof.Machine.execRsvEB s
  | .rsvEF => Sys2Proof.Machine.execRsvEF s
  | .rsvF3 => Sys2Proof.Machine.execRsvF3 s
  | .rsvF4 => Sys2Proof.Machine.execRsvF4 s
  | .rsvF7 => Sys2Proof.Machine.execRsvF7 s
  | .rsvFB => Sys2Proof.Machine.execRsvFB s
  | .rsvFC => Sys2Proof.Machine.execRsvFC s
  | .rsvFF => Sys2Proof.Machine.execRsvFF s

end Sys2Proof.Machine
end

