-- ==== Sys2Proof/Machine/Environment.lean ====
section
/-! DEFINITION. The moves of the environment, made between CPU steps (spec/00_scope.md R5, spec/48_via.md R219, R220,
spec/60_exceptions.md R265). -/

namespace Sys2Proof.Machine

/-- Drive NMI_n: a change from 1 to 0 sets NMI_LATCH, a change from 0 to 1 does nothing else (R265). -/
def driveNmi (level : Bool) (s : State) : State :=
  let s1 := s.setLines { s.lines with nmiN := level }
  if s.lines.nmiN && !level then s1.setNmiLatch true else s1

/-- One move of the environment. -/
def envMove (m : EnvMove) (s : State) : State :=
  match m with
  | .setPower level => s.setLines { s.lines with power := level }
  | .setReady level => s.setLines { s.lines with ready := level }
  | .setResetN level => s.setLines { s.lines with resetN := level }
  | .setNmiN level => driveNmi level s
  | .setPin c p v => s.setVia c ((s.via c).setPin p v)
  | .assertCl1 c => assertCl1 c s

end Sys2Proof.Machine
end

