-- ==== Sys2Proof/WellFormed.lean ====
section
/-! DEFINITION. Which addressing forms each instruction has (the "Operands" sentence of its rule in
spec/40_load_store.md to spec/47_transfer_flag_nop.md). -/

namespace Sys2Proof

/-- The nine forms of LDA, ORA, AND, EOR, ADC, SBC and CMP (R110, R121 to R125, R135). -/
def Form.aluForms : List Form := [.imm, .zp, .zpx, .abs, .abx, .aby, .izx, .izy, .zpi]

/-- The five forms of ASL, LSR, ROL, ROR, INC and DEC (R130 to R133, R138, R139). -/
def Form.shiftForms : List Form := [.acc, .zp, .zpx, .abs, .abx]

/-- The forms in which an instruction that takes a mode exists. For an instruction whose operand is not a mode
it is the empty list, and no check is made. -/
def Instr.allowedForms : Instr → List Form
  | .lda _ => Form.aluForms
  | .ldx _ => [.imm, .zp, .zpy, .abs, .aby]
  | .ldy _ => [.imm, .zp, .zpx, .abs, .abx]
  | .sta _ => [.zp, .zpx, .abs, .abx, .aby, .izx, .izy, .zpi]
  | .stx _ => [.zp, .zpy, .abs]
  | .sty _ => [.zp, .zpx, .abs]
  | .stz _ => [.zp, .zpx, .abs, .abx]
  | .ora _ => Form.aluForms
  | .and _ => Form.aluForms
  | .eor _ => Form.aluForms
  | .adc _ => Form.aluForms
  | .sbc _ => Form.aluForms
  | .bit _ => [.zp, .zpx, .abs, .abx, .imm]
  | .tsb _ => [.zp, .abs]
  | .trb _ => [.zp, .abs]
  | .asl _ => Form.shiftForms
  | .lsr _ => Form.shiftForms
  | .rol _ => Form.shiftForms
  | .ror _ => Form.shiftForms
  | .cmp _ => Form.aluForms
  | .cpx _ => [.imm, .zp, .abs]
  | .cpy _ => [.imm, .zp, .abs]
  | .inc _ => Form.shiftForms
  | .dec _ => Form.shiftForms
  | .jmp _ => [.abs, .ind, .iax]
  | _ => []

/-- The mode of an instruction that takes one. -/
def Instr.mode? : Instr → Option Mode
  | .lda m => some m
  | .ldx m => some m
  | .ldy m => some m
  | .sta m => some m
  | .stx m => some m
  | .sty m => some m
  | .stz m => some m
  | .ora m => some m
  | .and m => some m
  | .eor m => some m
  | .adc m => some m
  | .sbc m => some m
  | .bit m => some m
  | .tsb m => some m
  | .trb m => some m
  | .asl m => some m
  | .lsr m => some m
  | .rol m => some m
  | .ror m => some m
  | .cmp m => some m
  | .cpx m => some m
  | .cpy m => some m
  | .inc m => some m
  | .dec m => some m
  | .jmp m => some m
  | _ => none

/-- An instruction is well formed when its mode, if it takes one, is among its forms: exactly then
spec/opcode_table.json has a row for it. -/
def Instr.wf (i : Instr) : Bool :=
  match i.mode? with
  | none => true
  | some m => i.allowedForms.contains m.form

end Sys2Proof
end

