-- ==== Sys2Proof/Decode.lean ====
section
/-! DEFINITION. The decoder (Table 30-2 of spec/30_encoding.md, one function a row) and, after it, the encoder
(Table 30-3). -/

namespace Sys2Proof

open Sys2Proof.Machine

/-- Row 0x of Table 30-2; `lo` is the low nibble of the opcode, `b1` and `b2` the operand bytes. -/
def decodeRow0 (lo : Nat) (b1 b2 : Byte) : Instr :=
  match lo with
  | 0 => .brk
  | 1 => .ora (.izx b1)
  | 2 => .rsv02
  | 3 => .rsv03
  | 4 => .tsb (.zp b1)
  | 5 => .ora (.zp b1)
  | 6 => .asl (.zp b1)
  | 7 => .rsv07
  | 8 => .php
  | 9 => .ora (.imm b1)
  | 10 => .asl .acc
  | 11 => .rsv0B
  | 12 => .tsb (.abs (mk16 b2 b1))
  | 13 => .ora (.abs (mk16 b2 b1))
  | 14 => .asl (.abs (mk16 b2 b1))
  | _ => .rsv0F

/-- Row 1x of Table 30-2; `lo` is the low nibble of the opcode, `b1` and `b2` the operand bytes. -/
def decodeRow1 (lo : Nat) (b1 b2 : Byte) : Instr :=
  match lo with
  | 0 => .bpl b1
  | 1 => .ora (.izy b1)
  | 2 => .ora (.zpi b1)
  | 3 => .rsv13
  | 4 => .trb (.zp b1)
  | 5 => .ora (.zpx b1)
  | 6 => .asl (.zpx b1)
  | 7 => .rsv17
  | 8 => .clc
  | 9 => .ora (.aby (mk16 b2 b1))
  | 10 => .inc .acc
  | 11 => .rsv1B
  | 12 => .trb (.abs (mk16 b2 b1))
  | 13 => .ora (.abx (mk16 b2 b1))
  | 14 => .asl (.abx (mk16 b2 b1))
  | _ => .rsv1F

/-- Row 2x of Table 30-2; `lo` is the low nibble of the opcode, `b1` and `b2` the operand bytes. -/
def decodeRow2 (lo : Nat) (b1 b2 : Byte) : Instr :=
  match lo with
  | 0 => .jsr (mk16 b2 b1)
  | 1 => .and (.izx b1)
  | 2 => .rsv22
  | 3 => .rsv23
  | 4 => .bit (.zp b1)
  | 5 => .and (.zp b1)
  | 6 => .rol (.zp b1)
  | 7 => .rsv27
  | 8 => .plp
  | 9 => .and (.imm b1)
  | 10 => .rol .acc
  | 11 => .rsv2B
  | 12 => .bit (.abs (mk16 b2 b1))
  | 13 => .and (.abs (mk16 b2 b1))
  | 14 => .rol (.abs (mk16 b2 b1))
  | _ => .rsv2F

/-- Row 3x of Table 30-2; `lo` is the low nibble of the opcode, `b1` and `b2` the operand bytes. -/
def decodeRow3 (lo : Nat) (b1 b2 : Byte) : Instr :=
  match lo with
  | 0 => .bmi b1
  | 1 => .and (.izy b1)
  | 2 => .and (.zpi b1)
  | 3 => .rsv33
  | 4 => .bit (.zpx b1)
  | 5 => .and (.zpx b1)
  | 6 => .rol (.zpx b1)
  | 7 => .rsv37
  | 8 => .sec
  | 9 => .and (.aby (mk16 b2 b1))
  | 10 => .dec .acc
  | 11 => .rsv3B
  | 12 => .bit (.abx (mk16 b2 b1))
  | 13 => .and (.abx (mk16 b2 b1))
  | 14 => .rol (.abx (mk16 b2 b1))
  | _ => .rsv3F

/-- Row 4x of Table 30-2; `lo` is the low nibble of the opcode, `b1` and `b2` the operand bytes. -/
def decodeRow4 (lo : Nat) (b1 b2 : Byte) : Instr :=
  match lo with
  | 0 => .rti
  | 1 => .eor (.izx b1)
  | 2 => .rsv42
  | 3 => .rsv43
  | 4 => .rsv44
  | 5 => .eor (.zp b1)
  | 6 => .lsr (.zp b1)
  | 7 => .rsv47
  | 8 => .pha
  | 9 => .eor (.imm b1)
  | 10 => .lsr .acc
  | 11 => .rsv4B
  | 12 => .jmp (.abs (mk16 b2 b1))
  | 13 => .eor (.abs (mk16 b2 b1))
  | 14 => .lsr (.abs (mk16 b2 b1))
  | _ => .rsv4F

/-- Row 5x of Table 30-2; `lo` is the low nibble of the opcode, `b1` and `b2` the operand bytes. -/
def decodeRow5 (lo : Nat) (b1 b2 : Byte) : Instr :=
  match lo with
  | 0 => .bvc b1
  | 1 => .eor (.izy b1)
  | 2 => .eor (.zpi b1)
  | 3 => .rsv53
  | 4 => .rsv54
  | 5 => .eor (.zpx b1)
  | 6 => .lsr (.zpx b1)
  | 7 => .rsv57
  | 8 => .cli
  | 9 => .eor (.aby (mk16 b2 b1))
  | 10 => .phy
  | 11 => .rsv5B
  | 12 => .rsv5C
  | 13 => .eor (.abx (mk16 b2 b1))
  | 14 => .lsr (.abx (mk16 b2 b1))
  | _ => .rsv5F

/-- Row 6x of Table 30-2; `lo` is the low nibble of the opcode, `b1` and `b2` the operand bytes. -/
def decodeRow6 (lo : Nat) (b1 b2 : Byte) : Instr :=
  match lo with
  | 0 => .rts
  | 1 => .adc (.izx b1)
  | 2 => .rsv62
  | 3 => .rsv63
  | 4 => .stz (.zp b1)
  | 5 => .adc (.zp b1)
  | 6 => .ror (.zp b1)
  | 7 => .rsv67
  | 8 => .pla
  | 9 => .adc (.imm b1)
  | 10 => .ror .acc
  | 11 => .rsv6B
  | 12 => .jmp (.ind (mk16 b2 b1))
  | 13 => .adc (.abs (mk16 b2 b1))
  | 14 => .ror (.abs (mk16 b2 b1))
  | _ => .rsv6F

/-- Row 7x of Table 30-2; `lo` is the low nibble of the opcode, `b1` and `b2` the operand bytes. -/
def decodeRow7 (lo : Nat) (b1 b2 : Byte) : Instr :=
  match lo with
  | 0 => .bvs b1
  | 1 => .adc (.izy b1)
  | 2 => .adc (.zpi b1)
  | 3 => .rsv73
  | 4 => .stz (.zpx b1)
  | 5 => .adc (.zpx b1)
  | 6 => .ror (.zpx b1)
  | 7 => .rsv77
  | 8 => .sei
  | 9 => .adc (.aby (mk16 b2 b1))
  | 10 => .ply
  | 11 => .rsv7B
  | 12 => .jmp (.iax (mk16 b2 b1))
  | 13 => .adc (.abx (mk16 b2 b1))
  | 14 => .ror (.abx (mk16 b2 b1))
  | _ => .rsv7F

/-- Row 8x of Table 30-2; `lo` is the low nibble of the opcode, `b1` and `b2` the operand bytes. -/
def decodeRow8 (lo : Nat) (b1 b2 : Byte) : Instr :=
  match lo with
  | 0 => .bra b1
  | 1 => .sta (.izx b1)
  | 2 => .rsv82
  | 3 => .rsv83
  | 4 => .sty (.zp b1)
  | 5 => .sta (.zp b1)
  | 6 => .stx (.zp b1)
  | 7 => .rsv87
  | 8 => .dey
  | 9 => .bit (.imm b1)
  | 10 => .txa
  | 11 => .rsv8B
  | 12 => .sty (.abs (mk16 b2 b1))
  | 13 => .sta (.abs (mk16 b2 b1))
  | 14 => .stx (.abs (mk16 b2 b1))
  | _ => .rsv8F

/-- Row 9x of Table 30-2; `lo` is the low nibble of the opcode, `b1` and `b2` the operand bytes. -/
def decodeRow9 (lo : Nat) (b1 b2 : Byte) : Instr :=
  match lo with
  | 0 => .bcc b1
  | 1 => .sta (.izy b1)
  | 2 => .sta (.zpi b1)
  | 3 => .rsv93
  | 4 => .sty (.zpx b1)
  | 5 => .sta (.zpx b1)
  | 6 => .stx (.zpy b1)
  | 7 => .rsv97
  | 8 => .tya
  | 9 => .sta (.aby (mk16 b2 b1))
  | 10 => .txs
  | 11 => .rsv9B
  | 12 => .stz (.abs (mk16 b2 b1))
  | 13 => .sta (.abx (mk16 b2 b1))
  | 14 => .stz (.abx (mk16 b2 b1))
  | _ => .rsv9F

/-- Row Ax of Table 30-2; `lo` is the low nibble of the opcode, `b1` and `b2` the operand bytes. -/
def decodeRowA (lo : Nat) (b1 b2 : Byte) : Instr :=
  match lo with
  | 0 => .ldy (.imm b1)
  | 1 => .lda (.izx b1)
  | 2 => .ldx (.imm b1)
  | 3 => .rsvA3
  | 4 => .ldy (.zp b1)
  | 5 => .lda (.zp b1)
  | 6 => .ldx (.zp b1)
  | 7 => .rsvA7
  | 8 => .tay
  | 9 => .lda (.imm b1)
  | 10 => .tax
  | 11 => .rsvAB
  | 12 => .ldy (.abs (mk16 b2 b1))
  | 13 => .lda (.abs (mk16 b2 b1))
  | 14 => .ldx (.abs (mk16 b2 b1))
  | _ => .rsvAF

/-- Row Bx of Table 30-2; `lo` is the low nibble of the opcode, `b1` and `b2` the operand bytes. -/
def decodeRowB (lo : Nat) (b1 b2 : Byte) : Instr :=
  match lo with
  | 0 => .bcs b1
  | 1 => .lda (.izy b1)
  | 2 => .lda (.zpi b1)
  | 3 => .rsvB3
  | 4 => .ldy (.zpx b1)
  | 5 => .lda (.zpx b1)
  | 6 => .ldx (.zpy b1)
  | 7 => .rsvB7
  | 8 => .clv
  | 9 => .lda (.aby (mk16 b2 b1))
  | 10 => .tsx
  | 11 => .rsvBB
  | 12 => .ldy (.abx (mk16 b2 b1))
  | 13 => .lda (.abx (mk16 b2 b1))
  | 14 => .ldx (.aby (mk16 b2 b1))
  | _ => .rsvBF

/-- Row Cx of Table 30-2; `lo` is the low nibble of the opcode, `b1` and `b2` the operand bytes. -/
def decodeRowC (lo : Nat) (b1 b2 : Byte) : Instr :=
  match lo with
  | 0 => .cpy (.imm b1)
  | 1 => .cmp (.izx b1)
  | 2 => .rsvC2
  | 3 => .rsvC3
  | 4 => .cpy (.zp b1)
  | 5 => .cmp (.zp b1)
  | 6 => .dec (.zp b1)
  | 7 => .rsvC7
  | 8 => .iny
  | 9 => .cmp (.imm b1)
  | 10 => .dex
  | 11 => .rsvCB
  | 12 => .cpy (.abs (mk16 b2 b1))
  | 13 => .cmp (.abs (mk16 b2 b1))
  | 14 => .dec (.abs (mk16 b2 b1))
  | _ => .rsvCF

/-- Row Dx of Table 30-2; `lo` is the low nibble of the opcode, `b1` and `b2` the operand bytes. -/
def decodeRowD (lo : Nat) (b1 b2 : Byte) : Instr :=
  match lo with
  | 0 => .bne b1
  | 1 => .cmp (.izy b1)
  | 2 => .cmp (.zpi b1)
  | 3 => .rsvD3
  | 4 => .rsvD4
  | 5 => .cmp (.zpx b1)
  | 6 => .dec (.zpx b1)
  | 7 => .rsvD7
  | 8 => .cld
  | 9 => .cmp (.aby (mk16 b2 b1))
  | 10 => .phx
  | 11 => .rsvDB
  | 12 => .rsvDC
  | 13 => .cmp (.abx (mk16 b2 b1))
  | 14 => .dec (.abx (mk16 b2 b1))
  | _ => .rsvDF

/-- Row Ex of Table 30-2; `lo` is the low nibble of the opcode, `b1` and `b2` the operand bytes. -/
def decodeRowE (lo : Nat) (b1 b2 : Byte) : Instr :=
  match lo with
  | 0 => .cpx (.imm b1)
  | 1 => .sbc (.izx b1)
  | 2 => .rsvE2
  | 3 => .rsvE3
  | 4 => .cpx (.zp b1)
  | 5 => .sbc (.zp b1)
  | 6 => .inc (.zp b1)
  | 7 => .rsvE7
  | 8 => .inx
  | 9 => .sbc (.imm b1)
  | 10 => .nop
  | 11 => .rsvEB
  | 12 => .cpx (.abs (mk16 b2 b1))
  | 13 => .sbc (.abs (mk16 b2 b1))
  | 14 => .inc (.abs (mk16 b2 b1))
  | _ => .rsvEF

/-- Row Fx of Table 30-2; `lo` is the low nibble of the opcode, `b1` and `b2` the operand bytes. -/
def decodeRowF (lo : Nat) (b1 b2 : Byte) : Instr :=
  match lo with
  | 0 => .beq b1
  | 1 => .sbc (.izy b1)
  | 2 => .sbc (.zpi b1)
  | 3 => .rsvF3
  | 4 => .rsvF4
  | 5 => .sbc (.zpx b1)
  | 6 => .inc (.zpx b1)
  | 7 => .rsvF7
  | 8 => .sed
  | 9 => .sbc (.aby (mk16 b2 b1))
  | 10 => .plx
  | 11 => .rsvFB
  | 12 => .rsvFC
  | 13 => .sbc (.abx (mk16 b2 b1))
  | 14 => .inc (.abx (mk16 b2 b1))
  | _ => .rsvFF

/-- R71: the opcode byte alone selects the instruction; operand bytes the instruction does not have are ignored. -/
def decodeOpcode (op b1 b2 : Byte) : Instr :=
  match op.toNat / 16 with
  | 0 => decodeRow0 (op.toNat % 16) b1 b2
  | 1 => decodeRow1 (op.toNat % 16) b1 b2
  | 2 => decodeRow2 (op.toNat % 16) b1 b2
  | 3 => decodeRow3 (op.toNat % 16) b1 b2
  | 4 => decodeRow4 (op.toNat % 16) b1 b2
  | 5 => decodeRow5 (op.toNat % 16) b1 b2
  | 6 => decodeRow6 (op.toNat % 16) b1 b2
  | 7 => decodeRow7 (op.toNat % 16) b1 b2
  | 8 => decodeRow8 (op.toNat % 16) b1 b2
  | 9 => decodeRow9 (op.toNat % 16) b1 b2
  | 10 => decodeRowA (op.toNat % 16) b1 b2
  | 11 => decodeRowB (op.toNat % 16) b1 b2
  | 12 => decodeRowC (op.toNat % 16) b1 b2
  | 13 => decodeRowD (op.toNat % 16) b1 b2
  | 14 => decodeRowE (op.toNat % 16) b1 b2
  | _ => decodeRowF (op.toNat % 16) b1 b2

/-- The operand bytes of a mode, in ascending address order (Table 30-1, R48). -/
def Mode.operandBytes : Mode → List Byte
  | .acc => []
  | .imm v => [v]
  | .zp z => [z]
  | .zpx z => [z]
  | .zpy z => [z]
  | .zpi z => [z]
  | .izx z => [z]
  | .izy z => [z]
  | .abs a => [lo8 a, hi8 a]
  | .abx a => [lo8 a, hi8 a]
  | .aby a => [lo8 a, hi8 a]
  | .ind a => [lo8 a, hi8 a]
  | .iax a => [lo8 a, hi8 a]

/-- The offset byte of a branch. -/
def Instr.rel8? : Instr → Option Byte
  | .bpl r => some r
  | .bmi r => some r
  | .bvc r => some r
  | .bvs r => some r
  | .bcc r => some r
  | .bcs r => some r
  | .bne r => some r
  | .beq r => some r
  | .bra r => some r
  | _ => none

/-- The operand bytes the processor fetches after the opcode. A reserved opcode has none: its skipped
bytes are not read (R189). -/
def Instr.operandBytes (i : Instr) : List Byte :=
  match i with
  | .jsr a => [lo8 a, hi8 a]
  | i =>
    match i.mode?, i.rel8? with
    | some m, _ => m.operandBytes
    | none, some r => [r]
    | none, none => []

/-- How many operand bytes follow an opcode and are fetched: a function of the opcode alone (R72). -/
def operandCount (op : Byte) : Nat := (decodeOpcode op 0 0).operandBytes.length

/-- The opcode of a reserved instruction. -/
def Instr.reservedOpcode? : Instr → Option Byte
  | .rsv02 => some 0x02
  | .rsv03 => some 0x03
  | .rsv07 => some 0x07
  | .rsv0B => some 0x0B
  | .rsv0F => some 0x0F
  | .rsv13 => some 0x13
  | .rsv17 => some 0x17
  | .rsv1B => some 0x1B
  | .rsv1F => some 0x1F
  | .rsv22 => some 0x22
  | .rsv23 => some 0x23
  | .rsv27 => some 0x27
  | .rsv2B => some 0x2B
  | .rsv2F => some 0x2F
  | .rsv33 => some 0x33
  | .rsv37 => some 0x37
  | .rsv3B => some 0x3B
  | .rsv3F => some 0x3F
  | .rsv42 => some 0x42
  | .rsv43 => some 0x43
  | .rsv44 => some 0x44
  | .rsv47 => some 0x47
  | .rsv4B => some 0x4B
  | .rsv4F => some 0x4F
  | .rsv53 => some 0x53
  | .rsv54 => some 0x54
  | .rsv57 => some 0x57
  | .rsv5B => some 0x5B
  | .rsv5C => some 0x5C
  | .rsv5F => some 0x5F
  | .rsv62 => some 0x62
  | .rsv63 => some 0x63
  | .rsv67 => some 0x67
  | .rsv6B => some 0x6B
  | .rsv6F => some 0x6F
  | .rsv73 => some 0x73
  | .rsv77 => some 0x77
  | .rsv7B => some 0x7B
  | .rsv7F => some 0x7F
  | .rsv82 => some 0x82
  | .rsv83 => some 0x83
  | .rsv87 => some 0x87
  | .rsv8B => some 0x8B
  | .rsv8F => some 0x8F
  | .rsv93 => some 0x93
  | .rsv97 => some 0x97
  | .rsv9B => some 0x9B
  | .rsv9F => some 0x9F
  | .rsvA3 => some 0xA3
  | .rsvA7 => some 0xA7
  | .rsvAB => some 0xAB
  | .rsvAF => some 0xAF
  | .rsvB3 => some 0xB3
  | .rsvB7 => some 0xB7
  | .rsvBB => some 0xBB
  | .rsvBF => some 0xBF
  | .rsvC2 => some 0xC2
  | .rsvC3 => some 0xC3
  | .rsvC7 => some 0xC7
  | .rsvCB => some 0xCB
  | .rsvCF => some 0xCF
  | .rsvD3 => some 0xD3
  | .rsvD4 => some 0xD4
  | .rsvD7 => some 0xD7
  | .rsvDB => some 0xDB
  | .rsvDC => some 0xDC
  | .rsvDF => some 0xDF
  | .rsvE2 => some 0xE2
  | .rsvE3 => some 0xE3
  | .rsvE7 => some 0xE7
  | .rsvEB => some 0xEB
  | .rsvEF => some 0xEF
  | .rsvF3 => some 0xF3
  | .rsvF4 => some 0xF4
  | .rsvF7 => some 0xF7
  | .rsvFB => some 0xFB
  | .rsvFC => some 0xFC
  | .rsvFF => some 0xFF
  | _ => none

/-- Why a list of bytes does not decode. No opcode value is illegal (R102), so a byte that is not there is the
only reason. -/
inductive DecodeError where
  /-- The list is empty. -/
  | noOpcode
  /-- The list ends before the instruction's last byte. -/
  | truncated
  deriving DecidableEq, Repr

/-- How many bytes after the opcode a reserved instruction skips, by a RESERVED_TABLE; 0 for the others. -/
def Instr.skipCount (t : List ReservedRow) (i : Instr) : Nat :=
  match i.reservedOpcode? with
  | some op => (reservedRow t op).skip.val
  | none => 0

/-- Decode the first instruction of a list of bytes, with a RESERVED_TABLE for the lengths of the reserved
opcodes; answers the instruction and the bytes after it. -/
def decodeWith (t : List ReservedRow) : List Byte → Except DecodeError (Instr × List Byte)
  | [] => .error .noOpcode
  | op :: rest =>
    let n := operandCount op
    let skip := (decodeOpcode op 0 0).skipCount t
    if rest.length < n + skip then .error .truncated
    else .ok (decodeOpcode op (rest.getD 0 0) (rest.getD 1 0), rest.drop (n + skip))

/-- `decodeWith` for the default RESERVED_TABLE (Table 47-1). -/
def decode (bytes : List Byte) : Except DecodeError (Instr × List Byte) :=
  decodeWith defaultReservedTable bytes

/-! ### The encoder, from Table 30-3 -/

/-- The opcode of a form in a row of Table 30-3. -/
def opcodeIn (t : List (Form × Byte)) (m : Mode) : Option Byte := t.lookup m.form

/-- The opcode byte of an instruction, from its row of Table 30-3; `none` for a mode the row does not list. -/
def Instr.opcode? : Instr → Option Byte
  | .lda m =>
    opcodeIn [(.izx, 0xA1), (.zp, 0xA5), (.imm, 0xA9), (.abs, 0xAD), (.izy, 0xB1),
      (.zpi, 0xB2), (.zpx, 0xB5), (.aby, 0xB9), (.abx, 0xBD)] m
  | .ldx m => opcodeIn [(.imm, 0xA2), (.zp, 0xA6), (.abs, 0xAE), (.zpy, 0xB6), (.aby, 0xBE)] m
  | .ldy m => opcodeIn [(.imm, 0xA0), (.zp, 0xA4), (.abs, 0xAC), (.zpx, 0xB4), (.abx, 0xBC)] m
  | .sta m =>
    opcodeIn [(.izx, 0x81), (.zp, 0x85), (.abs, 0x8D), (.izy, 0x91), (.zpi, 0x92),
      (.zpx, 0x95), (.aby, 0x99), (.abx, 0x9D)] m
  | .stx m => opcodeIn [(.zp, 0x86), (.abs, 0x8E), (.zpy, 0x96)] m
  | .sty m => opcodeIn [(.zp, 0x84), (.abs, 0x8C), (.zpx, 0x94)] m
  | .stz m => opcodeIn [(.zp, 0x64), (.zpx, 0x74), (.abs, 0x9C), (.abx, 0x9E)] m
  | .ora m =>
    opcodeIn [(.izx, 0x01), (.zp, 0x05), (.imm, 0x09), (.abs, 0x0D), (.izy, 0x11),
      (.zpi, 0x12), (.zpx, 0x15), (.aby, 0x19), (.abx, 0x1D)] m
  | .and m =>
    opcodeIn [(.izx, 0x21), (.zp, 0x25), (.imm, 0x29), (.abs, 0x2D), (.izy, 0x31),
      (.zpi, 0x32), (.zpx, 0x35), (.aby, 0x39), (.abx, 0x3D)] m
  | .eor m =>
    opcodeIn [(.izx, 0x41), (.zp, 0x45), (.imm, 0x49), (.abs, 0x4D), (.izy, 0x51),
      (.zpi, 0x52), (.zpx, 0x55), (.aby, 0x59), (.abx, 0x5D)] m
  | .adc m =>
    opcodeIn [(.izx, 0x61), (.zp, 0x65), (.imm, 0x69), (.abs, 0x6D), (.izy, 0x71),
      (.zpi, 0x72), (.zpx, 0x75), (.aby, 0x79), (.abx, 0x7D)] m
  | .sbc m =>
    opcodeIn [(.izx, 0xE1), (.zp, 0xE5), (.imm, 0xE9), (.abs, 0xED), (.izy, 0xF1),
      (.zpi, 0xF2), (.zpx, 0xF5), (.aby, 0xF9), (.abx, 0xFD)] m
  | .bit m => opcodeIn [(.zp, 0x24), (.abs, 0x2C), (.zpx, 0x34), (.abx, 0x3C), (.imm, 0x89)] m
  | .tsb m => opcodeIn [(.zp, 0x04), (.abs, 0x0C)] m
  | .trb m => opcodeIn [(.zp, 0x14), (.abs, 0x1C)] m
  | .asl m => opcodeIn [(.zp, 0x06), (.acc, 0x0A), (.abs, 0x0E), (.zpx, 0x16), (.abx, 0x1E)] m
  | .lsr m => opcodeIn [(.zp, 0x46), (.acc, 0x4A), (.abs, 0x4E), (.zpx, 0x56), (.abx, 0x5E)] m
  | .rol m => opcodeIn [(.zp, 0x26), (.acc, 0x2A), (.abs, 0x2E), (.zpx, 0x36), (.abx, 0x3E)] m
  | .ror m => opcodeIn [(.zp, 0x66), (.acc, 0x6A), (.abs, 0x6E), (.zpx, 0x76), (.abx, 0x7E)] m
  | .cmp m =>
    opcodeIn [(.izx, 0xC1), (.zp, 0xC5), (.imm, 0xC9), (.abs, 0xCD), (.izy, 0xD1),
      (.zpi, 0xD2), (.zpx, 0xD5), (.aby, 0xD9), (.abx, 0xDD)] m
  | .cpx m => opcodeIn [(.imm, 0xE0), (.zp, 0xE4), (.abs, 0xEC)] m
  | .cpy m => opcodeIn [(.imm, 0xC0), (.zp, 0xC4), (.abs, 0xCC)] m
  | .inc m => opcodeIn [(.acc, 0x1A), (.zp, 0xE6), (.abs, 0xEE), (.zpx, 0xF6), (.abx, 0xFE)] m
  | .dec m => opcodeIn [(.acc, 0x3A), (.zp, 0xC6), (.abs, 0xCE), (.zpx, 0xD6), (.abx, 0xDE)] m
  | .inx => some 0xE8
  | .iny => some 0xC8
  | .dex => some 0xCA
  | .dey => some 0x88
  | .bpl _ => some 0x10
  | .bmi _ => some 0x30
  | .bvc _ => some 0x50
  | .bvs _ => some 0x70
  | .bcc _ => some 0x90
  | .bcs _ => some 0xB0
  | .bne _ => some 0xD0
  | .beq _ => some 0xF0
  | .bra _ => some 0x80
  | .jmp m => opcodeIn [(.abs, 0x4C), (.ind, 0x6C), (.iax, 0x7C)] m
  | .pha => some 0x48
  | .php => some 0x08
  | .phx => some 0xDA
  | .phy => some 0x5A
  | .pla => some 0x68
  | .plp => some 0x28
  | .plx => some 0xFA
  | .ply => some 0x7A
  | .jsr _ => some 0x20
  | .rts => some 0x60
  | .rti => some 0x40
  | .brk => some 0x00
  | .tax => some 0xAA
  | .txa => some 0x8A
  | .tay => some 0xA8
  | .tya => some 0x98
  | .tsx => some 0xBA
  | .txs => some 0x9A
  | .clc => some 0x18
  | .sec => some 0x38
  | .cli => some 0x58
  | .sei => some 0x78
  | .cld => some 0xD8
  | .sed => some 0xF8
  | .clv => some 0xB8
  | .nop => some 0xEA
  | i => i.reservedOpcode?

/-- The bytes of a well-formed instruction, byte 0 first, under a RESERVED_TABLE; a skipped byte of a reserved
opcode, which is not interpreted, is encoded as 0x00. An ill-formed term has no encoding: the empty list. -/
def encodeWith (t : List ReservedRow) (i : Instr) : List Byte :=
  match i.opcode? with
  | some op => op :: (i.operandBytes ++ List.replicate (i.skipCount t) 0)
  | none => []

/-- `encodeWith` for the default RESERVED_TABLE. -/
def encode (i : Instr) : List Byte := encodeWith defaultReservedTable i

/-- The instruction whose bits are `w`, bit 0 the least significant bit of the first byte; the bits above `nbits`
are zero, so the three bytes of the longest instruction are laid out. -/
def decodeTableWord (nbits w : Nat) : Option Instr :=
  let v := w % 2 ^ nbits
  match decode [BitVec.ofNat 8 v, BitVec.ofNat 8 (v / 256), BitVec.ofNat 8 (v / 65536)] with
  | .ok (i, _) => some i
  | .error _ => none

end Sys2Proof
end

