-- ==== Sys2Proof/Machine/Fetch.lean ====
section
/-! DEFINITION. Fetching an instruction (spec/30_encoding.md R70, R71), one byte at a time through the address decoder: a fetch
from a VIA window is a register read with its side effects (spec/20_memory.md R46). -/

namespace Sys2Proof.Machine

/-- Fetch() (R70). -/
def fetch (s : State) : Byte × State :=
  let r := memRead s.pc s
  (r.1, r.2.setPc (r.2.pc + 1))

/-- The opcode, then as many operand bytes as it has, in ascending order (R48, R52). PC is left at the byte after the
last one fetched. -/
def fetchInstr (s : State) : Instr × State :=
  let op := fetch s
  match operandCount op.1 with
  | 0 => (decodeOpcode op.1 0 0, op.2)
  | 1 =>
    let b1 := fetch op.2
    (decodeOpcode op.1 b1.1 0, b1.2)
  | _ =>
    let b1 := fetch op.2
    let b2 := fetch b1.2
    (decodeOpcode op.1 b1.1 b2.1, b2.2)

end Sys2Proof.Machine
end

