-- ==== Sys2Proof/Machine/Interrupt.lean ====
section
/-! DEFINITION. The interrupt check at the end of a CPU step (spec/60_exceptions.md R270). -/

namespace Sys2Proof.Machine

/-- InterruptCheck() (R270): NMI first, then IRQ if P.I is clear; at most one entry. -/
def interruptCheck (s : State) : State :=
  if s.nmiLatch then interruptEntry s.cfg.vecNmi (s.setNmiLatch false)
  else if !s.irqN && !getFlag s.p .i then interruptEntry s.cfg.vecIrq s
  else s

end Sys2Proof.Machine
end

