-- ==== Sys2Proof/Machine/Reset.lean ====
section
/-! DEFINITION. Reset and power-on (spec/70_reset_and_hazards.md R300 to R304). -/

namespace Sys2Proof.Machine

/-- CpuReset() (R300): nothing is pushed. -/
def cpuReset (s : State) : State :=
  let c := s.cfg
  let s1 := (((((s.setA c.resetA).setX c.resetX).setY c.resetY).setSp c.resetSp).setP c.resetP).setNmiLatch false
  let v := read16 c.vecReset s1
  (v.2.setPc v.1).charge c.resetCycles

/-- ClearRam() one byte at a time, the DMA agent having a turn before each, for `n` bytes from `a` up: the form it takes while
a transfer is in flight (R254, R303). -/
def clearRun (a : Nat) (n : Nat) (s : State) : State :=
  match n with
  | 0 => s
  | n + 1 => clearRun (a + 1) n (ramWrite (BitVec.ofNat 16 a) 0x00 (dmaTurn s))

/-- ClearRam() (R303): every byte below ROM_BASE becomes 0x00, not through the decoder. With no transfer in flight nothing can
come between, and it is one action. -/
def clearRam (s : State) : State :=
  if s.sc.busy then clearRun 0 s.cfg.romBase.toNat s else s.setMem (s.mem.clearBelow s.cfg.romBase.toNat)

/-- A CPU step taken with RESET_n = 0 (R6, R302): the CPU reset, memory cleared, no fetch and no interrupt check. -/
def resetStep (s : State) : State := clearRam (cpuReset s)

/-- PowerOn() (R304) for a set of parameters, a ROM image and a store image, with the environment's lines idle and its pins low
(log entry 6). Bytes of an image past the end of its memory are ignored. -/
def powerOn (c : Config) (romImage storeImage : List Byte) : State :=
  let rom := Memory.load [] c.romBase.toNat (romImage.take (65536 - c.romBase.toNat))
  cpuReset
    { State.reset with cfg := c, mem := rom, store := Memory.load [] 0 (storeImage.take 4194304), cyc := 0 }

end Sys2Proof.Machine
end

