-- ==== Sys2Proof/Machine/Step.lean ====
section
/-! DEFINITION. One step of the machine (spec/00_scope.md R6). -/

namespace Sys2Proof.Machine

/-- The instruction part of a CPU step and the interrupt check after it (R6, R270). -/
def runInstr (i : Instr) (s : State) : Host.Outcome State Fault Refusal :=
  match exec i s with
  | .next t => .next (interruptCheck t)
  | .fault r => .fault r
  | .refused r => .refused r

/-- CpuStep (R6, R306): with READY = 0 the CPU holds its state and only the DMA agent may move; with RESET_n = 0 the step is a
reset. -/
def cpuStep (s : State) : Host.Outcome State Fault Refusal :=
  if !s.lines.ready then .next (dmaTurn s)
  else if !s.lines.resetN then .next (resetStep s)
  else runInstr (fetchInstr s).1 (fetchInstr s).2

/-- One step: the turn that `script` has next, a CPU step when it has none. With POWER = 0 the run has ended (R306); parameters
that break R7 are refused. -/
def step (s : State) : Host.Outcome State Fault Refusal :=
  if configOk s.cfg then
    if !s.lines.power then .fault .powerOff
    else
      match s.script with
      | .env m :: rest => .next (envMove m (s.setScript rest))
      | .dma :: rest => .next (dmaSteps 1 (s.setScript rest))
      | .cpu :: rest => cpuStep (s.setScript rest)
      | [] => cpuStep s
  else .refused .badConfiguration

/-- The instruction's three bytes stored in RAM at PC, which is where `step` fetches next, with the CPU's lines such that the
next turn is a CPU step that fetches (log entry 11). -/
def State.withFetchWord (s : State) (nbits w : Nat) : State :=
  let v := w % 2 ^ nbits
  let s1 := ramWrite s.pc (BitVec.ofNat 8 v)
    (ramWrite (s.pc + 1) (BitVec.ofNat 8 (v / 256)) (ramWrite (s.pc + 2) (BitVec.ofNat 8 (v / 65536)) s))
  (s1.setScript []).setLines { s1.lines with power := true, ready := true, resetN := true }

end Sys2Proof.Machine
end

