-- ==== Sys2Proof/Safety.lean ====
section
/-! DEFINITION. The terms the statements are written in: when no transfer is in flight, when the next turn is a CPU step
that fetches, several steps in a row, how a status byte may change, what a data operand is, and the invariant of the machine. -/

namespace Sys2Proof.Machine

/-- The parameters meet R7 and no asynchronous transfer is in flight, so the DMA agent has no step to take (R245). -/
abbrev State.quiet (s : State) : Prop := configOk s.cfg = true ∧ s.sc.busy = false

/-- The next turn is a CPU step that fetches an instruction (R6, R306). -/
abbrev State.running (s : State) : Prop :=
  s.script = [] ∧ s.lines.power = true ∧ s.lines.ready = true ∧ s.lines.resetN = true

/-- One more step after an outcome: a stop stays as it is. -/
def thenStep (o : Result) : Result :=
  match o with
  | .next s => step s
  | .fault r => .fault r
  | .refused r => .refused r

/-- `n` more steps after an outcome. -/
def run (n : Nat) (o : Result) : Result :=
  match n with
  | 0 => o
  | n + 1 => run n (thenStep o)

/-- The address leads to Bus memory, not to a VIA (R41). -/
abbrev plainAddr (s : State) (a : Addr) : Prop := decodeAddr s.cfg a = .plain

/-- In `p'` each listed flag has the listed value, and every other flag is as in `p`. -/
abbrev flagsBecome (p p' : Byte) (l : List (Flag × Bool)) : Prop :=
  (∀ f b, (f, b) ∈ l → getFlag p' f = b) ∧ ∀ f, f ∉ l.map Prod.fst → getFlag p' f = getFlag p f

/-- What `SetNZ(v)` lists (R14). -/
abbrev nzOf (v : Byte) : List (Flag × Bool) := [(.n, v.getLsbD 7), (.z, decide (v = 0))]

/-- The operand of an instruction that reads and the state after the read: the immediate byte, the accumulator, or one CPU
read at the effective address (R77, R81, R82). -/
def operandAt (m : Mode) (s : State) : Byte × State :=
  match m with
  | .imm v => (v, s)
  | .acc => (s.a, s)
  | m => memRead (effAddr m s).addr (effAddr m s).st

/-- The offset of a port's register in a VIA window (Table 48-1). -/
def portOffset (p : Port) : BitVec 4 :=
  match p with
  | .p0 => 0x0
  | .p1 => 0x1

/-- A 16-bit pointer in Bus memory, its high byte at the next address modulo 65536 (R47). -/
def ramWord (a : Addr) (s : State) : Addr := mk16 (ramRead (a + 1) s) (ramRead a s)

/-- A 16-bit pointer in page zero, its high byte at the next address modulo 256 (R79). -/
def zpWord (z : Byte) (s : State) : Addr := mk16 (ramRead (zext16 (z + 1)) s) (ramRead (zext16 z) s)

/-- The nine feed bytes that program a transfer: Bus offset, store offset, length; `send` is bit 6 of each third byte
(R236, R237). -/
def transferProgram (dsr : Addr) (ar : StoreAddr) (olr : BitVec 11) (send : Bool) : List Byte :=
  let tag : Byte := if send then 0xC0 else 0x80
  [lo8 dsr, hi8 dsr, tag] ++
    [ar.extractLsb' 0 8, ar.extractLsb' 8 8, tag ||| (ar.extractLsb' 16 6).setWidth 8] ++
    [olr.extractLsb' 0 8, (olr.extractLsb' 8 3).setWidth 8, tag]

/-- Bytes written one after the other to a port of a VIA instance. -/
def feedBytes (c : ViaId) (p : Port) (l : List Byte) (s : State) : State :=
  l.foldl (fun s v => viaWrite c (portOffset p) v s) s

/-- `t` has every CPU register, line, parameter and coming turn as `s` has it: they differ in memories, devices and the
model's own counters at most. -/
structure SameCpu (s t : State) : Prop where
  cfg : t.cfg = s.cfg
  a : t.a = s.a
  x : t.x = s.x
  y : t.y = s.y
  sp : t.sp = s.sp
  p : t.p = s.p
  pc : t.pc = s.pc
  cyc : t.cyc = s.cyc
  nmiLatch : t.nmiLatch = s.nmiLatch
  lines : t.lines = s.lines
  script : t.script = s.script

/-- The shape shared by the shifts, INC and DEC: the accumulator form changes A alone; a memory form makes one read and one write
at the effective address, and with no transfer in flight a destination in Bus memory is the one byte that changes. `out` gives
the result and the flags from the operand, `cost` the cycles from the page crossing. -/
def modifies (i : Mode → Instr) (out : Byte → Byte × List (Flag × Bool)) (cost : Mode → Bool → Nat) (s : State) :
    Prop :=
  (∃ p', exec (i .acc) s = .next { s with a := (out s.a).1, p := p', cyc := s.cyc + cost .acc false } ∧
    flagsBecome s.p p' (out s.a).2) ∧
  ∀ m : Mode, (i m).wf = true → m ≠ .acc →
    let e := effAddr m s
    let r := memRead e.addr e.st
    ∃ p', exec (i m) s =
        .next { memWrite e.addr (out r.1).1 { r.2 with p := p' } with cyc := s.cyc + cost m e.crossed } ∧
      flagsBecome s.p p' (out r.1).2 ∧
      (s.quiet → plainAddr s e.addr → s.mem.wf 65536 = true →
        ∀ b : Addr, ramRead b (memWrite e.addr (out r.1).1 { r.2 with p := p' }) =
          if b = e.addr then (out r.1).1 else ramRead b s)

/-- What an entry does with no transfer in flight (R272): the return address high then low and a status byte are written at the
three stack places and nowhere else, SP is 3 lower, I is set, D cleared only if INT_CLEARS_D, PC is read from the vector
pair, 7 cycles; `ret`, `status` and the further flags `extra` are the event's own. -/
def enters (s : State) (t : State) (ret : Addr) (status : Byte) (vec : Addr) (extra : List (Flag × Bool)) : Prop :=
  ∃ (m : Memory) (p' : Byte),
    t = { s with mem := m, sp := s.sp - 3, p := p', pc := mk16 (m.read (vec + 1).toNat) (m.read vec.toNat), cyc := s.cyc + 7 } ∧
    flagsBecome s.p p' ([(.i, true)] ++ (if s.cfg.intClearsD = true then [(.d, false)] else []) ++ extra) ∧
    (s.mem.wf 65536 = true → ∀ b : Addr, m.read b.toNat =
      if b = stackAddr s then hi8 ret
      else if b = mk16 s.cfg.stackPage (s.sp - 1) then lo8 ret
      else if b = mk16 s.cfg.stackPage (s.sp - 2) then status else ramRead b s)

/-- The flags that an instruction can change (Table 10-1, "Written by"; interrupt entry and reset are not instructions). -/
def flagsWritten (cfg : Config) (i : Instr) : List Flag :=
  match i with
  | .lda _ | .ldx _ | .ldy _ | .ora _ | .and _ | .eor _ | .inc _ | .dec _ => [.n, .z]
  | .inx | .iny | .dex | .dey | .pla | .plx | .ply | .tax | .tay | .txa | .tya | .tsx => [.n, .z]
  | .adc _ | .sbc _ => [.n, .v, .z, .c]
  | .asl _ | .lsr _ | .rol _ | .ror _ | .cmp _ | .cpx _ | .cpy _ => [.n, .z, .c]
  | .bit m => if m.form = .imm then [.z] else [.n, .v, .z]
  | .tsb _ | .trb _ => [.z]
  | .clc | .sec => [.c]
  | .cli | .sei => [.i]
  | .cld | .sed => [.d]
  | .clv => [.v]
  | .plp | .rti => [.n, .v, .u, .b, .d, .i, .z, .c]
  | .brk => if cfg.intClearsD then [.u, .b, .i, .d] else [.u, .b, .i]
  | _ => []

/-- The storage controller's discipline: BUSY exactly while all three latches are set, the latches set in order, a
transfer in flight being instance 3's (R241, R242, R245). -/
abbrev StorageCtl.disciplined (k : StorageCtl) : Prop :=
  (k.busy = true ↔ k.dsrSet = true ∧ k.arSet = true ∧ k.olrSet = true) ∧
    (k.arSet = true → k.dsrSet = true) ∧ (k.olrSet = true → k.arSet = true) ∧
    (k.busy = true → k.comp = .via3 ∧ k.xferI ≤ k.olr.toNat) ∧ (k.busy = false → k.xferI = 0)

/-- A VIA in which no cause bit but control line 1's is set and the three other control lines are at 0 (R215). -/
abbrev Via.disciplined (cfg : Config) (v : Via) : Prop :=
  clearBit7 v.ifr cfg.cl1IfrBit.val = 0 ∧ v.ca2 = false ∧ v.cb1 = false ∧ v.cb2 = false

/-- The invariant of the machine: both memories in canonical form, the storage controller and the VIAs disciplined. -/
abbrev State.Inv (s : State) : Prop :=
  s.mem.wf 65536 = true ∧ s.store.wf 4194304 = true ∧ s.sc.disciplined ∧
    s.via1.disciplined s.cfg ∧ s.via2.disciplined s.cfg ∧ s.via3.disciplined s.cfg

end Sys2Proof.Machine
end

