-- ==== Sys2Proof/Certificates/Slice0/Obligations.lean ====
section
/-! DEFINITION. The statements for the provers, in the order of OBLIGATIONS.json. -/

section Statements

open Sys2Proof Sys2Proof.Machine

/-! ### Encoding -/

/-- Decoding the encoding of a well-formed instruction gives the instruction and the bytes after it, under every
RESERVED_TABLE (R71, R72, Table 30-3). The bytes a reserved opcode skips are encoded as 0x00 (log entry 11). -/
def Obligations.DecodeEncodeRoundTrip : Prop :=
  ∀ (t : List ReservedRow) (i : Instr) (rest : List Byte), i.wf = true →
    decodeWith t (encodeWith t i ++ rest) = .ok (i, rest)

/-- The other direction: whatever decodes is well formed, begins with its opcode and, but for the skipped bytes of a reserved
opcode, encodes to the bytes it was read from; a list of bytes fails to decode only by ending too soon (R71, R102). -/
def Obligations.DecodedBytesReencode : Prop :=
  ∀ (t : List ReservedRow) (op : Byte) (tail : List Byte),
    (∀ (i : Instr) (rest : List Byte), decodeWith t (op :: tail) = .ok (i, rest) →
      i.wf = true ∧ i.opcode? = some op ∧ (i.reservedOpcode? = none → encodeWith t i ++ rest = op :: tail) ∧
        (i.reservedOpcode? ≠ none → rest = tail.drop (i.skipCount t))) ∧
    (2 ≤ tail.length → ∃ i rest, decodeWith t (op :: tail) = .ok (i, rest))

/-- Every opcode value selects one instruction, whatever bytes follow; how many operand bytes are fetched is a function of
the opcode byte alone (R71, R72, Table 30-2 and Table 30-3 agreeing). -/
def Obligations.OpcodeSelectsInstruction : Prop :=
  ∀ op b1 b2 : Byte,
    (decodeOpcode op b1 b2).wf = true ∧ (decodeOpcode op b1 b2).opcode? = some op ∧
      (decodeOpcode op b1 b2).operandBytes = [b1, b2].take (operandCount op)

/-- Words written out from the spec's encodings decode to the instructions they stand for (Table 30-3 and the examples of the
instruction rules). The last word is a reserved opcode: that 0x5C takes two skipped bytes is the spec's default RESERVED_TABLE
(Table 47-1), which the model takes as PRESUMED (log entry 10). -/
def Obligations.KnownWordsDecode : Prop :=
  decode [0xA9, 0x80] = .ok (.lda (.imm 0x80), []) ∧
    decode [0x8D, 0x00, 0x02] = .ok (.sta (.abs 0x0200), []) ∧
    decode [0x69, 0x46] = .ok (.adc (.imm 0x46), []) ∧
    decode [0x0A] = .ok (.asl .acc, []) ∧
    decode [0xFE, 0x34, 0x12] = .ok (.inc (.abx 0x1234), []) ∧
    decode [0xD0, 0xFD] = .ok (.bne 0xFD, []) ∧
    decode [0x6C, 0x00, 0x03] = .ok (.jmp (.ind 0x0300), []) ∧
    decode [0x28] = .ok (.plp, []) ∧
    decode [0x20, 0x34, 0x12] = .ok (.jsr 0x1234, []) ∧
    decode [0x9A] = .ok (.txs, []) ∧
    decode [0x5C, 0x00, 0x00] = .ok (.rsv5C, [])

/-! ### Reset and power-on -/

/-- The state after reset, with the spec's default parameters and the model's choices: ROM and store images all zero (log
entries 2 and 3), lines idle and pins low (log entry 6), COMP = 2 (log entry 5), the model's own fields empty (entries 7 to
9). The numbers are the defaults of Table 00-1, which the spec marks as its decisions (log entry 4). -/
def Obligations.ResetValues : Prop :=
  State.reset.a = 0x00 ∧ State.reset.x = 0x00 ∧ State.reset.y = 0x00 ∧ State.reset.sp = 0xFD ∧ State.reset.p = 0x34 ∧
    State.reset.pc = 0x0000 ∧ State.reset.cyc = 7 ∧ State.reset.nmiLatch = false ∧
    State.reset.lines = ⟨true, true, true, true⟩ ∧ (∀ b : Addr, ramRead b State.reset = 0x00) ∧
    (∀ k : StoreAddr, State.reset.store.read k.toNat = 0x00) ∧ (∀ c, State.reset.via c = Via.powerOn) ∧
    State.reset.sc = StorageCtl.powerOn ∧ State.reset.irqN = true ∧ State.reset.script = [] ∧
    State.reset.dmaPlan = [] ∧ State.reset.dmaWait = none ∧ State.reset.freeIndex = 0 ∧ State.reset.cfg = defaultConfig ∧
    powerOn defaultConfig [] [] = State.reset

/-- Power-on for every set of parameters and every pair of images that fill their memories' ranges (R304, R30, Table 10-4): the
registers from the parameters, the bytes below ROM_BASE zero, the images in place, PC from the reset vector, every
element of the VIAs and of the storage controller zero but COMP, 1 reset charged. The spec gives no value for COMP (R307): the
model's is 2 (log entry 5). The model's choices too: the port pins 0 and the lines idle (log entry 6), the store zero beyond the
end of a shorter image (log entry 3), its own script, plan, wait and counter empty (log entries 7, 8 and 9). -/
def Obligations.PowerOnValues : Prop :=
  ∀ (c : Config) (rom st : List Byte), configOk c = true → rom.length = 65536 - c.romBase.toNat → st.length ≤ 4194304 →
    let s := powerOn c rom st
    s.cfg = c ∧ s.a = c.resetA ∧ s.x = c.resetX ∧ s.y = c.resetY ∧ s.sp = c.resetSp ∧ s.p = c.resetP ∧
      s.cyc = c.resetCycles ∧ s.nmiLatch = false ∧
      (∀ b : Addr, ramRead b s = if b.toNat < c.romBase.toNat then 0x00 else rom.getD (b.toNat - c.romBase.toNat) 0x00) ∧
      (∀ k : StoreAddr, s.store.read k.toNat = st.getD k.toNat 0x00) ∧
      s.pc = mk16 (rom.getD (c.vecReset.toNat + 1 - c.romBase.toNat) 0x00)
        (rom.getD (c.vecReset.toNat - c.romBase.toNat) 0x00) ∧
      (∀ k, s.via k = Via.powerOn) ∧ s.sc = StorageCtl.powerOn ∧ s.lines = ⟨true, true, true, true⟩ ∧ s.script = [] ∧
      s.dmaPlan = [] ∧ s.dmaWait = none ∧ s.freeIndex = 0

/-- A CPU step taken with RESET_n = 0 and no transfer in flight (R6, R300, R301, R303): the registers are reseeded, PC is read
from the reset vector, every byte below ROM_BASE is cleared and every byte from ROM_BASE up kept, and nothing else
changes: not a VIA, not the storage controller, not the store, not a line. -/
def Obligations.ResetStep : Prop :=
  ∀ s : State, s.quiet → s.script = [] → s.lines.power = true → s.lines.ready = true → s.lines.resetN = false →
    ∃ m : Memory,
      step s = .next
        { s with
          a := s.cfg.resetA, x := s.cfg.resetX, y := s.cfg.resetY, sp := s.cfg.resetSp, p := s.cfg.resetP,
          pc := ramWord s.cfg.vecReset s, cyc := s.cyc + s.cfg.resetCycles, nmiLatch := false, mem := m } ∧
      ∀ b : Addr, m.read b.toNat = if b.toNat < s.cfg.romBase.toNat then 0x00 else ramRead b s

/-! ### The invariant -/

/-- The invariant holds at reset. -/
def Obligations.ResetMeetsInvariant : Prop := State.reset.Inv

/-- Every step keeps the invariant, from every state that meets it and with every parameter, script and DMA plan: both memories
stay in canonical form, a transfer is in flight exactly while all three latches are set, no cause bit but control line 1's
is ever set (R28, R215, R241, R242, R245). -/
def Obligations.StepKeepsInvariant : Prop := ∀ s t : State, s.Inv → step s = .next t → t.Inv

/-- The parameters never change during a run, and a machine whose parameters break a constraint is refused (R7).
Two of the constraints are the model's reading of other rules (DEDUCED, log entry 15): no VIA window lies on STACK_PAGE, whatever
page it is, and the vector pairs lie in the ROM region. -/
def Obligations.ParametersFixed : Prop :=
  (∀ s t : State, step s = .next t → t.cfg = s.cfg) ∧
    ∀ s : State, configOk s.cfg = false → step s = .refused .badConfiguration

/-! ### Bus memory and the address decoder -/

/-- An address in the window of instance `c` leads to that instance with the offset from its base, whatever the order in which
the windows are tried; every other address leads to Bus memory (R41, under the constraints of R7); so page zero, the stack page
and the three vector pairs do (R46, R275). -/
def Obligations.AddressDecoder : Prop :=
  ∀ (cfg : Config) (a : Addr), configOk cfg = true →
    (∀ c : ViaId, (viaBase cfg c).toNat ≤ a.toNat → a.toNat ≤ (viaBase cfg c).toNat + 15 →
      decodeAddr cfg a = .chip c (BitVec.ofNat 4 (a.toNat - (viaBase cfg c).toNat))) ∧
    ((∀ c : ViaId, a.toNat < (viaBase cfg c).toNat ∨ (viaBase cfg c).toNat + 15 < a.toNat) → decodeAddr cfg a = .plain) ∧
    (hi8 a = 0x00 ∨ hi8 a = cfg.stackPage → decodeAddr cfg a = .plain) ∧
    ∀ v : Addr, v = cfg.vecNmi ∨ v = cfg.vecReset ∨ v = cfg.vecIrq → a = v ∨ a = v + 1 → decodeAddr cfg a = .plain

/-- A CPU read and a CPU write go through the decoder: to the VIA's register access or to Bus memory (R44, R45), in the state the
DMA agent leaves at its turn before the access, which with no transfer in flight is the state itself. That the agent has a turn
before each access is the model's choice among the interleavings R246 allows (log entry 8). -/
def Obligations.CpuAccess : Prop :=
  ∀ (s : State) (a : Addr) (v : Byte),
    let s1 := dmaTurn s
    (∀ c o, decodeAddr s.cfg a = .chip c o → memRead a s = viaRead c o s1 ∧ memWrite a v s = viaWrite c o v s1) ∧
      (decodeAddr s.cfg a = .plain → memRead a s = (ramRead a s1, s1) ∧ memWrite a v s = ramWrite a v s1) ∧
      (s.sc.busy = false → s1 = s)

/-- A Bus access, in every state and with the DMA agent's turn before it, changes no CPU register, line or parameter; a CPU
read with no transfer in flight changes no byte of either memory, and no register of the storage controller (R51). -/
def Obligations.AccessFrame : Prop :=
  ∀ (s : State) (a : Addr) (v : Byte) (m : Mode),
    SameCpu s (memRead a s).2 ∧ SameCpu s (memWrite a v s) ∧ SameCpu s (effAddr m s).st ∧ SameCpu s (operandAt m s).2 ∧
      (s.sc.busy = false →
        (memRead a s).2.mem = s.mem ∧ (memRead a s).2.store = s.store ∧ (memRead a s).2.sc = s.sc ∧
          (operandAt m s).2.mem = s.mem ∧ (operandAt m s).2.store = s.store ∧ (operandAt m s).2.sc = s.sc)

/-- Bus memory and the store read back what was written last, every other byte as before, and stay in canonical form; writing the
byte that is there leaves the memory as it was; a write of Bus memory changes nothing but Bus memory (R22, R23, R42, R43). That
it is never blocked, the ROM region included, is the spec's decision D20 (U13, log entry 13). -/
def Obligations.RamReadAfterWrite : Prop :=
  ∀ (s : State) (v : Byte),
    (s.mem.wf 65536 = true → ∀ a : Addr,
      (∀ b : Addr, ramRead b (ramWrite a v s) = if b = a then v else ramRead b s) ∧
        ramWrite a v s = { s with mem := (ramWrite a v s).mem } ∧ (ramWrite a v s).mem.wf 65536 = true ∧
        (ramRead a s = v → (ramWrite a v s).mem = s.mem)) ∧
    (s.store.wf 4194304 = true → ∀ k : StoreAddr,
      (∀ j : StoreAddr, (s.store.write k.toNat v).read j.toNat = if j = k then v else s.store.read j.toNat) ∧
        (s.store.write k.toNat v).wf 4194304 = true ∧
        (s.store.read k.toNat = v → s.store.write k.toNat v = s.store))

/-- The effective address of every mode (R82 to R93): zero-page sums modulo 256, other sums modulo 65536, pointers
little-endian, a page crossing reported by abx, aby and izy alone. With no transfer in flight; the pointers of ind and iax,
which may lie anywhere, in Bus memory. -/
def Obligations.EffectiveAddresses : Prop :=
  ∀ (s : State) (z : Byte) (a : Addr), s.quiet →
    effAddr (.imm z) s = ⟨s.pc - 1, false, s⟩ ∧
    effAddr (.zp z) s = ⟨BitVec.ofNat 16 z.toNat, false, s⟩ ∧
    effAddr (.zpx z) s = ⟨BitVec.ofNat 16 ((z.toNat + s.x.toNat) % 256), false, s⟩ ∧
    effAddr (.zpy z) s = ⟨BitVec.ofNat 16 ((z.toNat + s.y.toNat) % 256), false, s⟩ ∧
    effAddr (.zpi z) s = ⟨zpWord z s, false, s⟩ ∧
    effAddr (.izx z) s = ⟨zpWord (BitVec.ofNat 8 (z.toNat + s.x.toNat)) s, false, s⟩ ∧
    effAddr (.izy z) s = ⟨BitVec.ofNat 16 ((zpWord z s).toNat + s.y.toNat),
      decide ((zpWord z s).toNat / 256 ≠ ((zpWord z s).toNat + s.y.toNat) % 65536 / 256), s⟩ ∧
    effAddr (.abs a) s = ⟨a, false, s⟩ ∧
    effAddr (.abx a) s = ⟨BitVec.ofNat 16 (a.toNat + s.x.toNat),
      decide (a.toNat / 256 ≠ (a.toNat + s.x.toNat) % 65536 / 256), s⟩ ∧
    effAddr (.aby a) s = ⟨BitVec.ofNat 16 (a.toNat + s.y.toNat),
      decide (a.toNat / 256 ≠ (a.toNat + s.y.toNat) % 65536 / 256), s⟩ ∧
    (plainAddr s a → plainAddr s (a + 1) → effAddr (.ind a) s = ⟨ramWord a s, false, s⟩) ∧
    (plainAddr s (a + zext16 s.x) → plainAddr s (a + zext16 s.x + 1) →
      effAddr (.iax a) s = ⟨ramWord (a + zext16 s.x) s, false, s⟩)

/-- Push and Pull (R16, R17, R18): always in the stack page, SP modulo 256, a push writing one byte and no other. -/
def Obligations.PushAndPull : Prop :=
  ∀ (s : State) (v : Byte), s.quiet →
    push v s = { ramWrite (mk16 s.cfg.stackPage s.sp) v s with sp := BitVec.ofNat 8 (s.sp.toNat + 255) } ∧
      (let sp' : Byte := BitVec.ofNat 8 (s.sp.toNat + 1)
       pull s = (ramRead (mk16 s.cfg.stackPage sp') s, { s with sp := sp' })) ∧
      (s.mem.wf 65536 = true →
        ∀ b : Addr, ramRead b (push v s) =
          if b.toNat = s.cfg.stackPage.toNat * 256 + s.sp.toNat then v else ramRead b s)

/-! ### The VIA -/

/-- Reading a port returns its input latch, clears that latch and clears the cause bit of the port, and changes nothing else;
the composite bit and the interrupt output follow from the remaining cause bits; a port write clears no cause bit
(R206). -/
def Obligations.PortRead : Prop :=
  ∀ (s : State) (c : ViaId) (p : Port),
    (∃ r : BitVec 7,
      viaRead c (portOffset p) s =
        ((s.via c).inLatch p, s.setVia c { (s.via c).setInLatch p 0x00 with ifr := r }) ∧
      (∀ k, k < 7 → r.getLsbD k =
        ((s.via c).ifr.getLsbD k && decide (k ≠ if p = s.cfg.cl1Port then s.cfg.cl1IfrBit.val else 4))) ∧
      ((viaRead c (portOffset p) s).2.via c).composite = decide (r ≠ 0) ∧
      ((viaRead c (portOffset p) s).2.via c).irqOut = decide (r = 0)) ∧
    ∀ (v : Byte) (d : ViaId) (k : Nat), (s.via d).ifr.getLsbD k = true →
      ((viaWrite c (portOffset p) v s).via d).ifr.getLsbD k = true

/-- Writing a port stores all eight bits in the output latch; if (instance, port) is in SC_FEED the byte goes to the storage
controller, and instance 1 never feeds it (R205, R207, R208). -/
def Obligations.PortWrite : Prop :=
  ∀ (s : State) (c : ViaId) (p : Port) (v : Byte),
    (c = .via1 → viaWrite c (portOffset p) v s = s.setVia c ((s.via c).setOutLatch p v)) ∧
      ∀ k : Companion, c = companionVia k →
        ((k, p) ∈ s.cfg.scFeed →
          viaWrite c (portOffset p) v s = scWriteByte v k (s.setVia c ((s.via c).setOutLatch p v))) ∧
        ((k, p) ∉ s.cfg.scFeed → viaWrite c (portOffset p) v s = s.setVia c ((s.via c).setOutLatch p v))

/-- The enable register: writing with the top bit set enables the listed causes, with it clear disables them; a read gives the
enables with the top bit set; neither changes anything else (R212). -/
def Obligations.EnableRegister : Prop :=
  ∀ (s : State) (c : ViaId) (v : Byte),
    (∃ e : BitVec 7,
      viaWrite c 0xE v s = s.setVia c { s.via c with ier := e } ∧
      ∀ k, k < 7 → e.getLsbD k =
        if v.getLsbD 7 = true then (s.via c).ier.getLsbD k || v.getLsbD k else (s.via c).ier.getLsbD k && !v.getLsbD k) ∧
    ∃ r : Byte, viaRead c 0xE s = (r, s) ∧ r.getLsbD 7 = true ∧ ∀ k, k < 7 → r.getLsbD k = (s.via c).ier.getLsbD k

/-- The flags register, the two direction masks and the control register (R209, R210, R211), and the offsets no source
describes, where a write does nothing and a read gives a free value (R214, log entry 9). The places and conventions are the
spec's decisions D21, D23 and D24 (log entry 13 for U11). -/
def Obligations.OtherRegisters : Prop :=
  ∀ (s : State) (c : ViaId) (v : Byte),
    viaWrite c 0x2 v s = s.setVia c { s.via c with ddr0 := v } ∧ viaRead c 0x2 s = ((s.via c).ddr0, s) ∧
    viaWrite c 0x3 v s = s.setVia c { s.via c with ddr1 := v } ∧ viaRead c 0x3 s = ((s.via c).ddr1, s) ∧
    viaWrite c 0xC v s = s.setVia c { s.via c with pcr := v } ∧ viaRead c 0xC s = ((s.via c).pcr, s) ∧
    (∃ r : BitVec 7, viaWrite c 0xD v s = s.setVia c { s.via c with ifr := r } ∧
      ∀ k, k < 7 → r.getLsbD k = ((s.via c).ifr.getLsbD k && !v.getLsbD k)) ∧
    (∃ r : Byte, viaRead c 0xD s = (r, s) ∧ r.getLsbD 7 = decide ((s.via c).ifr ≠ 0) ∧
      ∀ k, k < 7 → r.getLsbD k = (s.via c).ifr.getLsbD k) ∧
    ∀ o : BitVec 4, 0x4 ≤ o.toNat → o ≠ 0xC → o ≠ 0xD → o ≠ 0xE →
      viaWrite c o v s = s ∧ viaRead c o s = (Config.freeByte s.freeIndex, { s with freeIndex := s.freeIndex + 1 })

/-- An assertion of control line 1 (R213, R216, R218): with the cause enabled and the produced edge selected it latches the port
value and sets the cause bit, otherwise it does neither; it touches no other instance and no other register but the level of
the line. -/
def Obligations.ControlLineAssertion : Prop :=
  ∀ (s : State) (c : ViaId),
    let v := s.via c
    let p := s.cfg.cl1Port
    let bit := s.cfg.cl1IfrBit.val
    let level := decide (s.cfg.cl1AssertEdge = .rising)
    (v.ier.getLsbD bit = true ∧ v.pcr.getLsbD s.cfg.cl1PcrBit.val = level →
      ∃ (latched : Byte) (r : BitVec 7),
        assertCl1 c s = s.setVia c { ({ v with ca1 := level }.setInLatch p latched) with ifr := r } ∧
        (∀ k, k < 8 → latched.getLsbD k =
          if (v.ddr p).getLsbD k = true then (v.outLatch p).getLsbD k else (v.pin p).getLsbD k) ∧
        (∀ k, k < 7 → r.getLsbD k = (v.ifr.getLsbD k || decide (k = bit)))) ∧
    (¬ (v.ier.getLsbD bit = true ∧ v.pcr.getLsbD s.cfg.cl1PcrBit.val = level) →
      assertCl1 c s = s.setVia c { v with ca1 := level })

/-- The interrupt line (R203, R222): the composite bit is set exactly while a cause bit is, a chip's output is low exactly then,
whatever its enable register holds, and IRQ_n is low exactly while one of the three outputs is. -/
def Obligations.InterruptLine : Prop :=
  (∀ v : Via, v.composite = decide (∃ k : Fin 7, v.ifr.getLsbD k.val = true) ∧ v.ifrByte.getLsbD 7 = v.composite ∧
    v.irqOut = !v.composite) ∧
    (∀ (v : Via) (e : BitVec 7), { v with ier := e }.irqOut = v.irqOut) ∧
    ∀ s : State, s.irqN = false ↔ ∃ c, (s.via c).irqOut = false

/-! ### The storage controller -/

/-- The byte protocol (R236, R237): three bytes in turn are ORed into the scratch value at bits 0, 8 and 16, the third sets the
direction from its bit 6 and commits if its bit 7 is set. That a third byte without bit 7 commits nothing, keeps the scratch
value and still sets the direction is the spec's decision D27 (U16, log entry 13). While BUSY = 1 the same is one interleaving of a race (R247, log
entry 8). -/
def Obligations.ByteProtocol : Prop :=
  ∀ (s : State) (b : Byte) (c : Companion),
    (s.sc.phase = .byte0 → ∃ w : BitVec 22, scWriteByte b c s = { s with sc := { s.sc with scratch := w, phase := .byte1 } } ∧
      w.toNat = s.sc.scratch.toNat ||| b.toNat) ∧
    (s.sc.phase = .byte1 → ∃ w : BitVec 22, scWriteByte b c s = { s with sc := { s.sc with scratch := w, phase := .byte2 } } ∧
      w.toNat = s.sc.scratch.toNat ||| b.toNat * 256) ∧
    (s.sc.phase = .byte2 → ∃ w : BitVec 22,
      let s1 : State :=
        { s with
          sc := { s.sc with
            scratch := w, phase := .byte0, dir := if b.getLsbD 6 = true then .send else .receive } }
      scWriteByte b c s = (if b.getLsbD 7 = true then scCommit c s1 else s1) ∧
        w.toNat = s.sc.scratch.toNat ||| b.toNat % 64 * 65536)

/-- A commit goes to the next unset latch in fixed order, masked to its width, and clears the scratch value; the third starts
the transfer, at once through instance 2, later by the DMA agent through instance 3; a fourth changes no latch and starts
nothing, and clears the scratch value all the same (the spec's decision D27, log entry 13) (R238, R240, R242, R245). -/
def Obligations.Commit : Prop :=
  ∀ (s : State) (c : Companion),
    (s.sc.dsrSet = false → scCommit c s =
      { s with sc := { s.sc with dsr := BitVec.ofNat 16 s.sc.scratch.toNat, dsrSet := true, scratch := 0 } }) ∧
    (s.sc.dsrSet = true → s.sc.arSet = false → scCommit c s =
      { s with sc := { s.sc with ar := s.sc.scratch, arSet := true, scratch := 0 } }) ∧
    (s.sc.dsrSet = true → s.sc.arSet = true → s.sc.olrSet = false →
      let k : StorageCtl := { s.sc with olr := BitVec.ofNat 11 s.sc.scratch.toNat, olrSet := true, scratch := 0 }
      scCommit .via2 s = scTransfer { s with sc := { k with comp := .via2 } } ∧
        scCommit .via3 s = { s with sc := { k with comp := .via3, busy := true, xferI := 0 } }) ∧
    (s.sc.dsrSet = true → s.sc.arSet = true → s.sc.olrSet = true →
      scCommit c s = { s with sc := { s.sc with scratch := 0 } })

/-- A transfer, byte for byte (R231, R243, R244): a receive writes the store bytes `AR + i` and no other from Bus memory, a send
the Bus bytes `DSR + i` and no other from the store, `i` below the length, both addresses wrapping; then control line 1 of
the companion is asserted and the latches are cleared, and nothing else changes. That both addresses wrap and that length 0
completes with no byte moved is the spec's decision D28 (U17, log entry 13). -/
def Obligations.TransferMovesBytes : Prop :=
  ∀ s : State, s.mem.wf 65536 = true → s.store.wf 4194304 = true →
    ∃ (m st : Memory),
      scTransfer s =
        assertCl1 (companionVia s.sc.comp)
          { s with
            mem := m, store := st,
            sc := { s.sc with
              dsr := 0, ar := 0, olr := 0, dsrSet := false, arSet := false, olrSet := false, scratch := 0, xferI := 0,
              busy := false } } ∧
      (s.sc.dir = .receive → m = s.mem ∧ ∀ k : StoreAddr, st.read k.toNat =
        if (k - s.sc.ar).toNat < s.sc.olr.toNat then ramRead (s.sc.dsr + BitVec.ofNat 16 (k - s.sc.ar).toNat) s
        else s.store.read k.toNat) ∧
      (s.sc.dir = .send → st = s.store ∧ ∀ b : Addr, m.read b.toNat =
        if (b - s.sc.dsr).toNat < s.sc.olr.toNat then
          s.store.read (s.sc.ar + BitVec.ofNat 22 (b - s.sc.dsr).toNat).toNat
        else ramRead b s)

/-- The source's round trip (R258): a receive of N bytes followed by a send of the same N bytes to any place in Bus memory
reproduces the original bytes there. -/
def Obligations.TransferRoundTrip : Prop :=
  ∀ (s t : State), s.mem.wf 65536 = true → s.store.wf 4194304 = true → s.sc.dir = .receive →
    t.mem = (scTransfer s).mem → t.store = (scTransfer s).store → t.sc.dir = .send → t.sc.ar = s.sc.ar →
    t.sc.olr = s.sc.olr →
    ∀ i, i < s.sc.olr.toNat →
      ramRead (t.sc.dsr + BitVec.ofNat 16 i) (scTransfer t) = ramRead (s.sc.dsr + BitVec.ofNat 16 i) s

/-- The source's scenario for every offset and length (R236 to R244, R256): nine bytes written to the feed port of instance 2,
from a controller at rest, perform a receive or a send of the programmed range inside the ninth write and leave the controller
at rest. With Bus offset 0, store offset 0 and length 5 the bytes are those of R256. -/
def Obligations.NineWritesTransfer : Prop :=
  ∀ (s : State) (p : Port) (d : Addr) (a : StoreAddr) (n : BitVec 11) (send : Bool),
    (Companion.via2, p) ∈ s.cfg.scFeed → s.sc.phase = .byte0 → s.sc.scratch = 0 → s.sc.dsrSet = false →
    s.sc.arSet = false → s.sc.olrSet = false →
    feedBytes .via2 p (transferProgram d a n send) s =
      (let s1 := s.setVia .via2 (s.via2.setOutLatch p (if send then 0xC0 else 0x80))
       scTransfer
        { s1 with
          sc := { s.sc with
            dsr := d, ar := a, olr := n, dsrSet := true, arSet := true, olrSet := true,
            dir := if send then .send else .receive, comp := .via2 } }) ∧
    transferProgram 0 0 5 false = [0x00, 0x00, 0x80, 0x00, 0x00, 0x80, 0x05, 0x00, 0x80]

/-- The asynchronous transfer (R242, R245, R248): byte by byte the DMA agent does what the transfer as one action does, in one
step more than the length; until its last step the companion's cause bits are untouched and BUSY stays 1, so when the cause
is seen every byte is in place. -/
def Obligations.PerByteTransferEqualsWhole : Prop :=
  ∀ s : State, s.sc.busy = true → s.sc.xferI = 0 → s.cfg.dmaGranularity = .perByte →
    dmaSteps (s.sc.olr.toNat + 1) s = scTransfer s ∧
      (∀ k, k ≤ s.sc.olr.toNat → (∀ c, (dmaSteps k s).via c = s.via c) ∧ (dmaSteps k s).sc = { s.sc with xferI := k }) ∧
      (scTransfer s).sc.busy = false ∧ dmaSteps 1 { s with cfg := { s.cfg with dmaGranularity := .whole } } =
        scTransfer { s with cfg := { s.cfg with dmaGranularity := .whole } }

/-! ### Loads and stores -/

/-- LDA, LDX and LDY in every form, in every state (R110, R111, R112): the register takes the operand, N and Z follow it, the
base cost and the page-crossing cycle are charged, and nothing else changes but what the operand read itself does; with no
transfer in flight every byte of memory reads as before. -/
def Obligations.Loads : Prop :=
  ∀ (m : Mode) (s : State),
    let r := operandAt m s
    let n := s.cyc + readCycles m (effAddr m s).crossed
    ((Instr.lda m).wf = true → ∃ p', exec (.lda m) s = .next { r.2 with a := r.1, p := p', cyc := n } ∧
      flagsBecome s.p p' (nzOf r.1)) ∧
    ((Instr.ldx m).wf = true → ∃ p', exec (.ldx m) s = .next { r.2 with x := r.1, p := p', cyc := n } ∧
      flagsBecome s.p p' (nzOf r.1)) ∧
    ((Instr.ldy m).wf = true → ∃ p', exec (.ldy m) s = .next { r.2 with y := r.1, p := p', cyc := n } ∧
      flagsBecome s.p p' (nzOf r.1)) ∧
    (s.sc.busy = false → ∀ b : Addr, ramRead b r.2 = ramRead b s)

/-- STA, STX, STY and STZ in every form (R113 to R116): one write of the register (or 0x00) at the effective address, no read
there, no register and no flag changed, the base cost charged; with no transfer in flight a store to Bus memory changes
that byte and no other, and a store into a window is the VIA's register write. -/
def Obligations.Stores : Prop :=
  ∀ (m : Mode) (s : State),
    let e := effAddr m s
    let n := s.cyc + storeCycles m
    ((Instr.sta m).wf = true → exec (.sta m) s = .next { memWrite e.addr s.a e.st with cyc := n }) ∧
    ((Instr.stx m).wf = true → exec (.stx m) s = .next { memWrite e.addr s.x e.st with cyc := n }) ∧
    ((Instr.sty m).wf = true → exec (.sty m) s = .next { memWrite e.addr s.y e.st with cyc := n }) ∧
    ((Instr.stz m).wf = true → exec (.stz m) s = .next { memWrite e.addr 0x00 e.st with cyc := n }) ∧
    ((Instr.sta m).wf = true ∨ (Instr.stx m).wf = true ∨ (Instr.sty m).wf = true ∨ (Instr.stz m).wf = true → s.quiet →
      ∀ v : Byte, e.st = s ∧
        (plainAddr s e.addr → s.mem.wf 65536 = true → memWrite e.addr v e.st = ramWrite e.addr v s ∧
          ∀ b : Addr, ramRead b (memWrite e.addr v e.st) = if b = e.addr then v else ramRead b s) ∧
        ∀ c o, decodeAddr s.cfg e.addr = .chip c o → memWrite e.addr v e.st = viaWrite c o v s)

/-! ### ALU group and bit tests -/

/-- ORA, AND and EOR in every form, in every state (R121, R122, R123), bit by bit: A takes the result, N and Z follow it, no other
flag and no other register changes; with no transfer in flight every byte of memory reads as before. -/
def Obligations.Logic : Prop :=
  ∀ (m : Mode) (s : State), (Instr.ora m).wf = true →
    let r := operandAt m s
    let n := s.cyc + readCycles m (effAddr m s).crossed
    (∃ v p', exec (.ora m) s = .next { r.2 with a := v, p := p', cyc := n } ∧ flagsBecome s.p p' (nzOf v) ∧
      ∀ k, v.getLsbD k = (s.a.getLsbD k || r.1.getLsbD k)) ∧
    (∃ v p', exec (.and m) s = .next { r.2 with a := v, p := p', cyc := n } ∧ flagsBecome s.p p' (nzOf v) ∧
      ∀ k, v.getLsbD k = (s.a.getLsbD k && r.1.getLsbD k)) ∧
    (∃ v p', exec (.eor m) s = .next { r.2 with a := v, p := p', cyc := n } ∧ flagsBecome s.p p' (nzOf v) ∧
      ∀ k, v.getLsbD k = (s.a.getLsbD k != r.1.getLsbD k)) ∧
    (s.sc.busy = false → ∀ b : Addr, ramRead b r.2 = ramRead b s)

/-- ADC and SBC in every form, in every state and on all operands (R124, R125): A, C and V from the addition or subtraction that
P.D selects, N and Z from the final accumulator, one more cycle where decimal mode charges it; no other register and no
other flag changes; with no transfer in flight every byte of memory reads as before. The results are the statements
BinaryArithmetic and DecimalArithmetic. -/
def Obligations.AddAndSubtract : Prop :=
  ∀ (m : Mode) (s : State), (Instr.adc m).wf = true →
    let r := operandAt m s
    let n := s.cyc + readCycles m (effAddr m s).crossed
    (∃ p', let o := adc (getFlag s.p .d) s.a r.1 (getFlag s.p .c)
      exec (.adc m) s = .next { r.2 with a := o.res, p := p', cyc := n + if o.extra then 1 else 0 } ∧
      flagsBecome s.p p' ([(.c, o.carry), (.v, o.overflow)] ++ nzOf o.res)) ∧
    (∃ p', let o := sbc (getFlag s.p .d) s.a r.1 (getFlag s.p .c)
      exec (.sbc m) s = .next { r.2 with a := o.res, p := p', cyc := n + if o.extra then 1 else 0 } ∧
      flagsBecome s.p p' ([(.c, o.carry), (.v, o.overflow)] ++ nzOf o.res)) ∧
    (s.sc.busy = false → ∀ b : Addr, ramRead b r.2 = ramRead b s)

/-- Binary addition and subtraction as integers (R120, R124, R125): the result modulo 256, C the unsigned carry or no-borrow, V
set exactly when the signed result does not fit a byte; no extra cycle. -/
def Obligations.BinaryArithmetic : Prop :=
  ∀ (a m : Byte) (cin : Bool),
    (let o := adc false a m cin
     o.res.toNat = (a.toNat + m.toNat + cin.toNat) % 256 ∧ o.carry = decide (255 < a.toNat + m.toNat + cin.toNat) ∧
      o.overflow = decide (a.toInt + m.toInt + cin.toNat < -128 ∨ 127 < a.toInt + m.toInt + cin.toNat) ∧ o.extra = false) ∧
    (let o := sbc false a m cin
     (o.res.toNat : Int) = ((a.toNat : Int) - m.toNat - (1 - cin.toNat)) % 256 ∧
      o.carry = decide (m.toNat + (1 - cin.toNat) ≤ a.toNat) ∧
      o.overflow = decide (a.toInt - m.toInt - (1 - cin.toNat) < -128 ∨ 127 < a.toInt - m.toInt - (1 - cin.toNat)) ∧
      o.extra = false)

/-- Decimal addition and subtraction on operands whose four digits are decimal (R124, R125): the two-digit decimal sum or
difference with carry or borrow; the extra cycle exactly when the sum passes 99 or the difference is negative. The exact
sequence behind them is the spec's decision D17, the extra cycle D18 (log entry 13). -/
def Obligations.DecimalArithmetic : Prop :=
  ∀ (ah al mh ml : Nat) (cin : Bool), ah < 10 → al < 10 → mh < 10 → ml < 10 →
    let a : Byte := BitVec.ofNat 8 (16 * ah + al)
    let m : Byte := BitVec.ofNat 8 (16 * mh + ml)
    (let o := adc true a m cin
     let sum := 10 * ah + al + (10 * mh + ml) + cin.toNat
     o.res.toNat = 16 * (sum % 100 / 10) + sum % 10 ∧ o.carry = decide (100 ≤ sum) ∧ o.extra = decide (100 ≤ sum)) ∧
    (let o := sbc true a m cin
     let diff := 100 + (10 * ah + al) + cin.toNat - (10 * mh + ml) - 1
     o.res.toNat = 16 * (diff % 100 / 10) + diff % 10 ∧ o.carry = decide (100 ≤ diff) ∧ o.extra = decide (diff < 100))

/-- BIT in every form, in every state (R126): Z from A AND the operand; N and V are bits 7 and 6 of the operand in the memory
forms and unchanged in the immediate form; A and every other flag unchanged; with no transfer in flight every byte of memory
reads as before. -/
def Obligations.BitTest : Prop :=
  ∀ (m : Mode) (s : State), (Instr.bit m).wf = true →
    let r := operandAt m s
    ∃ p', exec (.bit m) s = .next { r.2 with p := p', cyc := s.cyc + readCycles m (effAddr m s).crossed } ∧
      flagsBecome s.p p' ((.z, decide (s.a &&& r.1 = 0)) ::
        (if m.form = .imm then [] else [(.n, r.1.getLsbD 7), (.v, r.1.getLsbD 6)])) ∧
      (s.sc.busy = false → ∀ b : Addr, ramRead b r.2 = ramRead b s)

/-- TSB and TRB in every form, in every state (R127, R128): one read and one write at the effective address, the bits of A set or
cleared in the operand, Z from A AND the operand before the write; A and every other flag unchanged; with no transfer in
flight a destination in Bus memory is the one byte that changes. -/
def Obligations.TestAndChangeBits : Prop :=
  ∀ (m : Mode) (s : State), (Instr.tsb m).wf = true →
    let e := effAddr m s
    let r := memRead e.addr e.st
    let z := decide (s.a &&& r.1 = 0)
    let n := s.cyc + shiftCycles m false
    (∃ v p', exec (.tsb m) s = .next { memWrite e.addr v { r.2 with p := p' } with cyc := n } ∧
      flagsBecome s.p p' [(.z, z)] ∧ (∀ k, v.getLsbD k = (r.1.getLsbD k || s.a.getLsbD k)) ∧
      (s.quiet → plainAddr s e.addr → s.mem.wf 65536 = true →
        ∀ b : Addr, ramRead b (memWrite e.addr v { r.2 with p := p' }) = if b = e.addr then v else ramRead b s)) ∧
    (∃ v p', exec (.trb m) s = .next { memWrite e.addr v { r.2 with p := p' } with cyc := n } ∧
      flagsBecome s.p p' [(.z, z)] ∧ (∀ k, v.getLsbD k = (r.1.getLsbD k && !s.a.getLsbD k)) ∧
      (s.quiet → plainAddr s e.addr → s.mem.wf 65536 = true →
        ∀ b : Addr, ramRead b (memWrite e.addr v { r.2 with p := p' }) = if b = e.addr then v else ramRead b s))

/-! ### Read-modify-write -/

/-- ASL, LSR, ROL and ROR in every form, in every state (R130 to R133), as arithmetic: doubling modulo 256 and halving, with the old
carry entering at bit 0 or bit 7 in the rotates, C the bit shifted out, N and Z from the result, no other flag and no other
register changed. -/
def Obligations.Shifts : Prop :=
  ∀ s : State,
    let cin := (getFlag s.p .c).toNat
    let out (res : Nat) (carry : Bool) : Byte × List (Flag × Bool) :=
      (BitVec.ofNat 8 res, (.c, carry) :: nzOf (BitVec.ofNat 8 res))
    modifies .asl (fun v => out (2 * v.toNat) (decide (128 ≤ v.toNat))) shiftCycles s ∧
      modifies .lsr (fun v => out (v.toNat / 2) (decide (v.toNat % 2 = 1))) shiftCycles s ∧
      modifies .rol (fun v => out (2 * v.toNat + cin) (decide (128 ≤ v.toNat))) shiftCycles s ∧
      modifies .ror (fun v => out (v.toNat / 2 + 128 * cin) (decide (v.toNat % 2 = 1))) shiftCycles s

/-- INC and DEC in every form, in every state (R138, R139): plus or minus one modulo 256, N and Z from the result, C and V and every
other flag unchanged, no page-crossing cycle. -/
def Obligations.IncrementAndDecrement : Prop :=
  ∀ s : State,
    let out (res : Nat) : Byte × List (Flag × Bool) := (BitVec.ofNat 8 res, nzOf (BitVec.ofNat 8 res))
    modifies .inc (fun v => out (v.toNat + 1)) (fun m _ => incCycles m) s ∧
      modifies .dec (fun v => out (v.toNat + 255)) (fun m _ => incCycles m) s

/-- INX, INY, DEX and DEY in every state (R140 to R143): plus or minus one modulo 256, N and Z from the result, 2 cycles, nothing
else. -/
def Obligations.IndexIncrements : Prop :=
  ∀ s : State,
    (∃ v p', exec .inx s = .next { s with x := v, p := p', cyc := s.cyc + 2 } ∧ v.toNat = (s.x.toNat + 1) % 256 ∧
      flagsBecome s.p p' (nzOf v)) ∧
    (∃ v p', exec .iny s = .next { s with y := v, p := p', cyc := s.cyc + 2 } ∧ v.toNat = (s.y.toNat + 1) % 256 ∧
      flagsBecome s.p p' (nzOf v)) ∧
    (∃ v p', exec .dex s = .next { s with x := v, p := p', cyc := s.cyc + 2 } ∧ v.toNat = (s.x.toNat + 255) % 256 ∧
      flagsBecome s.p p' (nzOf v)) ∧
    (∃ v p', exec .dey s = .next { s with y := v, p := p', cyc := s.cyc + 2 } ∧ v.toNat = (s.y.toNat + 255) % 256 ∧
      flagsBecome s.p p' (nzOf v)) ∧
    Instr.inx.opcode? = some 0xE8 ∧ Instr.iny.opcode? = some 0xC8 ∧ Instr.dex.opcode? = some 0xCA ∧
    Instr.dey.opcode? = some 0x88

/-- CMP, CPX and CPY in every form, in every state (R135 to R137): C is the unsigned comparison, Z equality, N bit 7 of the
difference modulo 256; V, D and every other flag and every register unchanged; with no transfer in flight every byte of memory
reads as before. -/
def Obligations.Compares : Prop :=
  ∀ (m : Mode) (s : State),
    let r := operandAt m s
    let n := s.cyc + readCycles m (effAddr m s).crossed
    let flags (reg : Byte) : List (Flag × Bool) :=
      [(.c, decide (r.1.toNat ≤ reg.toNat)), (.z, decide (reg = r.1)),
        (.n, decide (128 ≤ ((reg.toNat : Int) - r.1.toNat) % 256))]
    ((Instr.cmp m).wf = true → ∃ p', exec (.cmp m) s = .next { r.2 with p := p', cyc := n } ∧ flagsBecome s.p p' (flags s.a)) ∧
    ((Instr.cpx m).wf = true → ∃ p', exec (.cpx m) s = .next { r.2 with p := p', cyc := n } ∧ flagsBecome s.p p' (flags s.x)) ∧
    ((Instr.cpy m).wf = true → ∃ p', exec (.cpy m) s = .next { r.2 with p := p', cyc := n } ∧ flagsBecome s.p p' (flags s.y)) ∧
    (s.sc.busy = false → ∀ b : Addr, ramRead b r.2 = ramRead b s)

/-! ### Branches and jump -/

/-- The nine branches in every state (R145 to R154): taken exactly when the flag has the value named, the target the next
instruction's address plus the signed offset modulo 65536, 2 cycles not taken, 3 taken, 4 across a page; no flag, no other
register and no memory changed. -/
def Obligations.Branches : Prop :=
  ∀ (r : Byte) (s : State),
    let target : Addr := BitVec.ofInt 16 ((s.pc.toNat : Int) + r.toInt)
    let out (cond : Prop) (i : Instr) : Prop :=
      (cond → exec i s =
        .next { s with
          pc := target, cyc := s.cyc + if s.pc.toNat / 256 = target.toNat / 256 then 3 else 4 }) ∧
      (¬ cond → exec i s = .next { s with cyc := s.cyc + 2 })
    out (getFlag s.p .n = false) (.bpl r) ∧ out (getFlag s.p .n = true) (.bmi r) ∧
      out (getFlag s.p .v = false) (.bvc r) ∧ out (getFlag s.p .v = true) (.bvs r) ∧
      out (getFlag s.p .c = false) (.bcc r) ∧ out (getFlag s.p .c = true) (.bcs r) ∧
      out (getFlag s.p .z = false) (.bne r) ∧ out (getFlag s.p .z = true) (.beq r) ∧ out True (.bra r)

/-- JMP in every form, in every state (R155): PC takes the effective address, nothing is pushed and nothing else changes but what
the pointer reads of ind and iax do, which with no transfer in flight is nothing to memory. -/
def Obligations.Jump : Prop :=
  ∀ (m : Mode) (s : State), (Instr.jmp m).wf = true →
    exec (.jmp m) s = .next { (effAddr m s).st with
      pc := (effAddr m s).addr, cyc := s.cyc + if m.form = .abs then 3 else 6 } ∧
    (s.sc.busy = false → ∀ b : Addr, ramRead b (effAddr m s).st = ramRead b s) ∧
    (∀ a : Addr, m = .abs a → (effAddr m s).addr = a ∧ (effAddr m s).st = s)

/-! ### The stack, subroutines and interrupts -/

/-- PHA, PHP, PHX and PHY with no transfer in flight (R160 to R163): one byte written at the stack pointer, SP one lower modulo 256,
3 cycles, no flag and no other register changed, no other byte of memory; PHP pushes P with bit 5 set and bit 4 as stored
(the spec's decision D13, log entry 13). -/
def Obligations.Pushes : Prop :=
  ∀ s : State, s.quiet →
    let out (i : Instr) (v : Byte) : Prop :=
      exec i s = .next { ramWrite (stackAddr s) v s with sp := s.sp - 1, cyc := s.cyc + 3 } ∧
        (s.mem.wf 65536 = true → ∀ b : Addr, ramRead b (ramWrite (stackAddr s) v s) =
          if b = stackAddr s then v else ramRead b s)
    out .pha s.a ∧ out .phx s.x ∧ out .phy s.y ∧
      (∃ v, out .php v ∧ getFlag v .u = true ∧ ∀ f, f ≠ .u → getFlag v f = getFlag s.p f) ∧
      Instr.pha.opcode? = some 0x48 ∧ Instr.phx.opcode? = some 0xDA ∧ Instr.phy.opcode? = some 0x5A

/-- PLA, PLP, PLX and PLY with no transfer in flight (R164 to R167): SP one higher modulo 256, the byte there to the register, 4
cycles; N and Z from the byte, but PLP loads all eight bits of P as pulled (the spec's decision D12, log entry 13); nothing else changed. -/
def Obligations.Pulls : Prop :=
  ∀ s : State, s.quiet →
    let v := ramRead (mk16 s.cfg.stackPage (s.sp + 1)) s
    (∃ p', exec .pla s = .next { s with a := v, sp := s.sp + 1, p := p', cyc := s.cyc + 4 } ∧ flagsBecome s.p p' (nzOf v)) ∧
    (∃ p', exec .plx s = .next { s with x := v, sp := s.sp + 1, p := p', cyc := s.cyc + 4 } ∧ flagsBecome s.p p' (nzOf v)) ∧
    (∃ p', exec .ply s = .next { s with y := v, sp := s.sp + 1, p := p', cyc := s.cyc + 4 } ∧ flagsBecome s.p p' (nzOf v)) ∧
    exec .plp s = .next { s with p := v, sp := s.sp + 1, cyc := s.cyc + 4 }

/-- JSR and RTS with no transfer in flight (R170, R171): JSR writes the address of its last byte, high byte first, at the two stack
places and no other byte, lowers SP by 2 and goes to its target; RTS takes the two bytes low first and goes one past them; no
flag and no other register changed. -/
def Obligations.CallAndReturn : Prop :=
  ∀ (s : State) (a : Addr), s.quiet →
    (∃ m : Memory,
      exec (.jsr a) s = .next { s with mem := m, sp := s.sp - 2, pc := a, cyc := s.cyc + 6 } ∧
      m = (s.mem.write (stackAddr s).toNat (hi8 (s.pc - 1))).write
        (mk16 s.cfg.stackPage (s.sp - 1)).toNat (lo8 (s.pc - 1)) ∧
      (s.mem.wf 65536 = true → ∀ b : Addr, m.read b.toNat =
        if b = stackAddr s then hi8 (s.pc - 1)
        else if b = mk16 s.cfg.stackPage (s.sp - 1) then lo8 (s.pc - 1) else ramRead b s)) ∧
    exec .rts s = .next
      { s with
        pc := mk16 (ramRead (mk16 s.cfg.stackPage (s.sp + 2)) s) (ramRead (mk16 s.cfg.stackPage (s.sp + 1)) s) + 1,
        sp := s.sp + 2, cyc := s.cyc + 6 }

/-- A call followed by a return comes back behind the call with the stack pointer restored, SP wrapping or not (R170, R171). -/
def Obligations.CallThenReturn : Prop :=
  ∀ (s t u : State) (a : Addr), s.quiet → s.mem.wf 65536 = true → exec (.jsr a) s = .next t → exec .rts t = .next u →
    u.pc = s.pc ∧ u.sp = s.sp ∧ u.p = s.p ∧ u.a = s.a ∧ u.x = s.x ∧ u.y = s.y

/-- RTI with no transfer in flight (R172): the status byte, then the return address low first, from the three stack places; bits 5
and 4 of P cleared (the spec's decision D12, log entry 13), the other six as pulled; the address used as pulled; nothing else changed. -/
def Obligations.ReturnFromInterrupt : Prop :=
  ∀ s : State, s.quiet →
    let v := ramRead (mk16 s.cfg.stackPage (s.sp + 1)) s
    ∃ p', exec .rti s = .next
        { s with
          p := p', sp := s.sp + 3, cyc := s.cyc + 6,
          pc := mk16 (ramRead (mk16 s.cfg.stackPage (s.sp + 3)) s) (ramRead (mk16 s.cfg.stackPage (s.sp + 2)) s) } ∧
      flagsBecome v p' [(.u, false), (.b, false)]

/-- BRK with no transfer in flight (R173): the software interrupt, through VEC_IRQ, whatever P.I holds; the return address is one
past the next byte, B and U are set in the register and in the pushed byte (the spec's decisions D10, D11, log entry 13). -/
def Obligations.SoftwareInterrupt : Prop :=
  ∀ s : State, s.quiet → ∃ (t : State) (v : Byte),
    exec .brk s = .next t ∧ flagsBecome s.p v [(.b, true), (.u, true)] ∧
      enters s t (s.pc + 1) v s.cfg.vecIrq [(.b, true), (.u, true)]

/-- A hardware entry with no transfer in flight (R272): PC high, PC low, then the status with the unused bit set and the Break bit
cleared; B and U of the register unchanged. -/
def Obligations.InterruptEntry : Prop :=
  ∀ (s : State) (vec : Addr), s.quiet → vec = s.cfg.vecNmi ∨ vec = s.cfg.vecIrq →
    ∃ v : Byte, flagsBecome s.p v [(.u, true), (.b, false)] ∧ enters s (interruptEntry vec s) s.pc v vec []

/-- The interrupt check, in every state (R270): a latched NMI first, unmasked, its latch cleared; else the IRQ line if it is low
and P.I is clear; else nothing; one entry at most. -/
def Obligations.InterruptCheckOrder : Prop :=
  ∀ s : State,
    (s.nmiLatch = true → interruptCheck s = interruptEntry s.cfg.vecNmi { s with nmiLatch := false }) ∧
    (s.nmiLatch = false → (∃ c, (s.via c).ifr ≠ 0) → getFlag s.p .i = false →
      interruptCheck s = interruptEntry s.cfg.vecIrq s) ∧
    (s.nmiLatch = false → (∀ c, (s.via c).ifr = 0) ∨ getFlag s.p .i = true → interruptCheck s = s)

/-- RTI undoes an entry (R272, R280): after an entry and an RTI with nothing between, PC and SP are as before, and every flag but U
and B, which are clear, and D where INT_CLEARS_D is no matter since the pushed byte kept it. That RTI clears U and B is the spec's decision D12 (U9, log
entry 13). -/
def Obligations.EntryThenReturn : Prop :=
  ∀ (s u : State) (vec : Addr), s.quiet → s.mem.wf 65536 = true → vec = s.cfg.vecNmi ∨ vec = s.cfg.vecIrq →
    exec .rti (interruptEntry vec s) = .next u →
    u.pc = s.pc ∧ u.sp = s.sp ∧ flagsBecome s.p u.p [(.u, false), (.b, false)] ∧ u.a = s.a ∧ u.x = s.x ∧ u.y = s.y

/-! ### Transfers, flags, NOP, reserved opcodes -/

/-- The six transfers and the seven flag instructions in every state (R175 to R187): one register or one flag written, N and Z with
the register except in TXS, 2 cycles, nothing else changed. -/
def Obligations.TransfersAndFlags : Prop :=
  ∀ s : State,
    let n := s.cyc + 2
    (∃ p', exec .tax s = .next { s with x := s.a, p := p', cyc := n } ∧ flagsBecome s.p p' (nzOf s.a)) ∧
    (∃ p', exec .txa s = .next { s with a := s.x, p := p', cyc := n } ∧ flagsBecome s.p p' (nzOf s.x)) ∧
    (∃ p', exec .tay s = .next { s with y := s.a, p := p', cyc := n } ∧ flagsBecome s.p p' (nzOf s.a)) ∧
    (∃ p', exec .tya s = .next { s with a := s.y, p := p', cyc := n } ∧ flagsBecome s.p p' (nzOf s.y)) ∧
    (∃ p', exec .tsx s = .next { s with x := s.sp, p := p', cyc := n } ∧ flagsBecome s.p p' (nzOf s.sp)) ∧
    exec .txs s = .next { s with sp := s.x, cyc := n } ∧
    (∃ p', exec .clc s = .next { s with p := p', cyc := n } ∧ flagsBecome s.p p' [(.c, false)]) ∧
    (∃ p', exec .sec s = .next { s with p := p', cyc := n } ∧ flagsBecome s.p p' [(.c, true)]) ∧
    (∃ p', exec .cli s = .next { s with p := p', cyc := n } ∧ flagsBecome s.p p' [(.i, false)]) ∧
    (∃ p', exec .sei s = .next { s with p := p', cyc := n } ∧ flagsBecome s.p p' [(.i, true)]) ∧
    (∃ p', exec .cld s = .next { s with p := p', cyc := n } ∧ flagsBecome s.p p' [(.d, false)]) ∧
    (∃ p', exec .sed s = .next { s with p := p', cyc := n } ∧ flagsBecome s.p p' [(.d, true)]) ∧
    (∃ p', exec .clv s = .next { s with p := p', cyc := n } ∧ flagsBecome s.p p' [(.v, false)])

/-- NOP and the 78 reserved opcodes in every state (R188, R189): PC moves past the bytes that RESERVED_TABLE says are skipped, its
cycles are charged, nothing else changes and nothing is read. Under the default table (PRESUMED by the spec, D2, log entry 10)
0x5C skips two bytes and costs 8 cycles, 0x44 one byte and 3 cycles, 0x03 none and 1. -/
def Obligations.NopAndReserved : Prop :=
  (∀ s : State, exec .nop s = .next { s with cyc := s.cyc + 2 }) ∧
    (∀ (s : State) (i : Instr) (op : Byte), i.reservedOpcode? = some op →
      exec i s = .next
        { s with
          pc := s.pc + BitVec.ofNat 16 (i.skipCount s.cfg.reservedTable),
          cyc := s.cyc + (reservedRow s.cfg.reservedTable op).cycles }) ∧
    (∀ op b1 b2 : Byte, (decodeOpcode op b1 b2).reservedOpcode? = none ∨ (decodeOpcode op b1 b2).reservedOpcode? = some op) ∧
    Instr.rsv5C.skipCount defaultReservedTable = 2 ∧ (reservedRow defaultReservedTable 0x5C).cycles = 8 ∧
    Instr.rsv44.skipCount defaultReservedTable = 1 ∧ (reservedRow defaultReservedTable 0x44).cycles = 3 ∧
    Instr.rsv03.skipCount defaultReservedTable = 0 ∧ (reservedRow defaultReservedTable 0x03).cycles = 1

/-! ### The whole machine -/

/-- A step runs the decoded instruction (R6, R70, R71): with no transfer in flight and the CPU to move, when the bytes at PC decode to
`i` and its opcode and operand bytes lie in Bus memory, the step is `exec i` with PC past the fetched bytes, then the
interrupt check. -/
def Obligations.StepRunsDecoded : Prop :=
  ∀ (s : State) (i : Instr) (rest : List Byte), s.quiet → s.running →
    decodeWith s.cfg.reservedTable [ramRead s.pc s, ramRead (s.pc + 1) s, ramRead (s.pc + 2) s] = .ok (i, rest) →
    (∀ k, k ≤ i.operandBytes.length → plainAddr s (s.pc + BitVec.ofNat 16 k)) →
    ∃ t, exec i { s with pc := s.pc + BitVec.ofNat 16 (1 + i.operandBytes.length) } = .next t ∧
      step s = .next (interruptCheck t)

/-- No instruction faults or is refused, in any state, whatever its operands (R8, R260); and with parameters that meet the
constraints of R7 every step of a powered machine answers a next state, whatever the script, the lines, PC and the storage
controller hold. With POWER = 0 the run has ended (R306): that a step then is a fault, the only one, and that with READY = 0 and
no transfer in flight a CPU turn changes nothing, is the model's reading of R306 (DEDUCED, log entry 14). Parameters that break
a constraint are refused (ParametersFixed, log entry 15). -/
def Obligations.OnlyPowerOffStops : Prop :=
  (∀ (i : Instr) (s : State), ∃ t, exec i s = .next t) ∧
    (∀ s : State, configOk s.cfg = true → s.lines.power = true → ∃ t, step s = .next t) ∧
    (∀ s : State, configOk s.cfg = true → s.lines.power = false → step s = .fault .powerOff) ∧
    (∀ s : State, s.quiet → s.script = [] → s.lines.power = true → s.lines.ready = false → step s = .next s) ∧
    ∀ s : State, step s = .fault .powerOff → s.lines.power = false

/-- The turns of the other two agents while powered. The environment (R219, R220, R265, R302): each move drives its line or pin and
nothing else; a falling edge of NMI_n sets NMI_LATCH, whatever READY is, and no other change of it does anything more; that a
latch holds one NMI and edges are not counted is the spec's decision D8 (U4, log entry 13). The DMA agent (R245, R306), whatever
READY and RESET_n are: a turn of its own is one DmaStep if BUSY = 1 and else nothing; at a CPU turn with READY = 0 the CPU does
nothing and the agent takes the steps its plan names, or with no plan lets a turn pass, or takes one step or more. The order of
the turns is the model's script (log entry 7); the plan, the wait and the numbers of steps are the model's (log entry 8). -/
def Obligations.EnvironmentMoves : Prop :=
  ∀ (s : State) (l : List Turn) (b : Bool) (c : ViaId) (p : Port) (v : Byte), configOk s.cfg = true → s.lines.power = true →
    let after (m : EnvMove) : Host.Outcome State Fault Refusal := step { s with script := .env m :: l }
    after (.setPower b) = .next { s with script := l, lines := { s.lines with power := b } } ∧
    after (.setReady b) = .next { s with script := l, lines := { s.lines with ready := b } } ∧
    after (.setResetN b) = .next { s with script := l, lines := { s.lines with resetN := b } } ∧
    after (.setNmiN b) = .next
      { s with
        script := l, lines := { s.lines with nmiN := b },
        nmiLatch := s.nmiLatch || (s.lines.nmiN && !b) } ∧
    after (.setPin c p v) = .next ({ s with script := l }.setVia c ((s.via c).setPin p v)) ∧
    after (.assertCl1 c) = .next (assertCl1 c { s with script := l }) ∧
    (let u : State := { s with script := l }
     let held := step { s with script := .cpu :: l }
     let wait := s.dmaWait.getD (Config.dmaDelay s.freeIndex)
     step { s with script := .dma :: l } = .next (if s.sc.busy = true then dmaStep u else u) ∧
     (s.lines.ready = false →
      (s.sc.busy = false → held = .next u) ∧
      (s.sc.busy = true →
        (∀ n rest, s.dmaPlan = n :: rest → held = .next (dmaSteps n { u with dmaPlan := rest })) ∧
        (∀ n, s.dmaPlan = [] → wait = n + 1 → held = .next { u with dmaWait := some n }) ∧
        (s.dmaPlan = [] → wait = 0 →
          held = .next
            (dmaSteps (Config.dmaBurst s.freeIndex + 1) { u with dmaWait := none, freeIndex := s.freeIndex + 1 })))))

/-- Fairness (R245, D29): an asynchronous transfer finishes. From every powered state that meets the invariant, whatever its script,
if that does not switch the power off, its plan, READY, RESET_n and the program, the machine comes to a state with BUSY = 0 in
some number of steps, on which there is no bound. How the agent's turns fall is the model's (log entry 8). -/
def Obligations.AsynchronousTransferFinishes : Prop :=
  ∀ s : State, s.Inv → configOk s.cfg = true → s.lines.power = true → Turn.env (.setPower false) ∉ s.script →
    ∃ n t, run n (.next s) = .next t ∧ t.sc.busy = false

/-- The end of a program (R325): a branch or a jump to itself, with no interrupt to take and no transfer in flight, is a fixed point
of the step but for the cycle counter. -/
def Obligations.SelfLoopIsFixedPoint : Prop :=
  ∀ s : State, s.quiet → s.running → s.nmiLatch = false → (s.irqN = true ∨ getFlag s.p .i = true) →
    plainAddr s s.pc → plainAddr s (s.pc + 1) →
    (ramRead s.pc s = 0x80 → ramRead (s.pc + 1) s = 0xFE →
      step s = .next { s with cyc := s.cyc + if s.pc.toNat / 256 = (s.pc + 2).toNat / 256 then 3 else 4 }) ∧
    (ramRead s.pc s = 0x4C → ramRead (s.pc + 1) s = lo8 s.pc → ramRead (s.pc + 2) s = hi8 s.pc → plainAddr s (s.pc + 2) →
      step s = .next { s with cyc := s.cyc + 3 })

/-- Which well-formed instructions can change A, X, Y and SP, in every state, a transfer in flight or not (R11, R16): an
instruction not listed leaves the register as it was, and no instruction changes a parameter, a line, NMI_LATCH or the coming
turns. -/
def Obligations.RegisterWriters : Prop :=
  ∀ (i : Instr) (s t : State), i.wf = true → exec i s = .next t →
    (t.a ≠ s.a → (∃ m, i = .lda m ∨ i = .ora m ∨ i = .and m ∨ i = .eor m ∨ i = .adc m ∨ i = .sbc m) ∨ i = .pla ∨ i = .txa ∨
      i = .tya ∨ i = .asl .acc ∨ i = .lsr .acc ∨ i = .rol .acc ∨ i = .ror .acc ∨ i = .inc .acc ∨ i = .dec .acc) ∧
    (t.x ≠ s.x → (∃ m, i = .ldx m) ∨ i = .inx ∨ i = .dex ∨ i = .plx ∨ i = .tax ∨ i = .tsx) ∧
    (t.y ≠ s.y → (∃ m, i = .ldy m) ∨ i = .iny ∨ i = .dey ∨ i = .ply ∨ i = .tay) ∧
    (t.sp ≠ s.sp → i = .pha ∨ i = .php ∨ i = .phx ∨ i = .phy ∨ i = .pla ∨ i = .plp ∨ i = .plx ∨ i = .ply ∨
      (∃ a, i = .jsr a) ∨ i = .rts ∨ i = .rti ∨ i = .brk ∨ i = .txs) ∧
    t.cfg = s.cfg ∧ t.lines = s.lines ∧ t.nmiLatch = s.nmiLatch ∧ t.script = s.script

/-- Table 10-1, in every state, a transfer in flight or not (R15): a flag that the table does not list for an instruction is left
unchanged by it. -/
def Obligations.FlagWriters : Prop :=
  ∀ (i : Instr) (s t : State) (f : Flag), exec i s = .next t → f ∉ flagsWritten s.cfg i → getFlag t.p f = getFlag s.p f

end Statements
end

