-- ==== Sys2Proof/Laws/State.lean ====
section
/-! SUPPORT. One lemma per field per update of the state, all true by `rfl`, so that no later proof unfolds a record
update; and the laws of `via` and `setVia`. -/

namespace Sys2Proof.Machine.State

variable (s : State)

@[simp] theorem setA_cfg (v : Byte) : (s.setA v).cfg = s.cfg := rfl
@[simp] theorem setA_a (v : Byte) : (s.setA v).a = v := rfl
@[simp] theorem setA_x (v : Byte) : (s.setA v).x = s.x := rfl
@[simp] theorem setA_y (v : Byte) : (s.setA v).y = s.y := rfl
@[simp] theorem setA_sp (v : Byte) : (s.setA v).sp = s.sp := rfl
@[simp] theorem setA_p (v : Byte) : (s.setA v).p = s.p := rfl
@[simp] theorem setA_pc (v : Byte) : (s.setA v).pc = s.pc := rfl
@[simp] theorem setA_cyc (v : Byte) : (s.setA v).cyc = s.cyc := rfl
@[simp] theorem setA_nmiLatch (v : Byte) : (s.setA v).nmiLatch = s.nmiLatch := rfl
@[simp] theorem setA_lines (v : Byte) : (s.setA v).lines = s.lines := rfl
@[simp] theorem setA_mem (v : Byte) : (s.setA v).mem = s.mem := rfl
@[simp] theorem setA_store (v : Byte) : (s.setA v).store = s.store := rfl
@[simp] theorem setA_via1 (v : Byte) : (s.setA v).via1 = s.via1 := rfl
@[simp] theorem setA_via2 (v : Byte) : (s.setA v).via2 = s.via2 := rfl
@[simp] theorem setA_via3 (v : Byte) : (s.setA v).via3 = s.via3 := rfl
@[simp] theorem setA_sc (v : Byte) : (s.setA v).sc = s.sc := rfl
@[simp] theorem setA_script (v : Byte) : (s.setA v).script = s.script := rfl
@[simp] theorem setA_dmaPlan (v : Byte) : (s.setA v).dmaPlan = s.dmaPlan := rfl
@[simp] theorem setA_dmaWait (v : Byte) : (s.setA v).dmaWait = s.dmaWait := rfl
@[simp] theorem setA_freeIndex (v : Byte) : (s.setA v).freeIndex = s.freeIndex := rfl
@[simp] theorem setA_via (v : Byte) (c : ViaId) : (s.setA v).via c = s.via c := by cases c <;> rfl

@[simp] theorem setX_cfg (v : Byte) : (s.setX v).cfg = s.cfg := rfl
@[simp] theorem setX_a (v : Byte) : (s.setX v).a = s.a := rfl
@[simp] theorem setX_x (v : Byte) : (s.setX v).x = v := rfl
@[simp] theorem setX_y (v : Byte) : (s.setX v).y = s.y := rfl
@[simp] theorem setX_sp (v : Byte) : (s.setX v).sp = s.sp := rfl
@[simp] theorem setX_p (v : Byte) : (s.setX v).p = s.p := rfl
@[simp] theorem setX_pc (v : Byte) : (s.setX v).pc = s.pc := rfl
@[simp] theorem setX_cyc (v : Byte) : (s.setX v).cyc = s.cyc := rfl
@[simp] theorem setX_nmiLatch (v : Byte) : (s.setX v).nmiLatch = s.nmiLatch := rfl
@[simp] theorem setX_lines (v : Byte) : (s.setX v).lines = s.lines := rfl
@[simp] theorem setX_mem (v : Byte) : (s.setX v).mem = s.mem := rfl
@[simp] theorem setX_store (v : Byte) : (s.setX v).store = s.store := rfl
@[simp] theorem setX_via1 (v : Byte) : (s.setX v).via1 = s.via1 := rfl
@[simp] theorem setX_via2 (v : Byte) : (s.setX v).via2 = s.via2 := rfl
@[simp] theorem setX_via3 (v : Byte) : (s.setX v).via3 = s.via3 := rfl
@[simp] theorem setX_sc (v : Byte) : (s.setX v).sc = s.sc := rfl
@[simp] theorem setX_script (v : Byte) : (s.setX v).script = s.script := rfl
@[simp] theorem setX_dmaPlan (v : Byte) : (s.setX v).dmaPlan = s.dmaPlan := rfl
@[simp] theorem setX_dmaWait (v : Byte) : (s.setX v).dmaWait = s.dmaWait := rfl
@[simp] theorem setX_freeIndex (v : Byte) : (s.setX v).freeIndex = s.freeIndex := rfl
@[simp] theorem setX_via (v : Byte) (c : ViaId) : (s.setX v).via c = s.via c := by cases c <;> rfl

@[simp] theorem setY_cfg (v : Byte) : (s.setY v).cfg = s.cfg := rfl
@[simp] theorem setY_a (v : Byte) : (s.setY v).a = s.a := rfl
@[simp] theorem setY_x (v : Byte) : (s.setY v).x = s.x := rfl
@[simp] theorem setY_y (v : Byte) : (s.setY v).y = v := rfl
@[simp] theorem setY_sp (v : Byte) : (s.setY v).sp = s.sp := rfl
@[simp] theorem setY_p (v : Byte) : (s.setY v).p = s.p := rfl
@[simp] theorem setY_pc (v : Byte) : (s.setY v).pc = s.pc := rfl
@[simp] theorem setY_cyc (v : Byte) : (s.setY v).cyc = s.cyc := rfl
@[simp] theorem setY_nmiLatch (v : Byte) : (s.setY v).nmiLatch = s.nmiLatch := rfl
@[simp] theorem setY_lines (v : Byte) : (s.setY v).lines = s.lines := rfl
@[simp] theorem setY_mem (v : Byte) : (s.setY v).mem = s.mem := rfl
@[simp] theorem setY_store (v : Byte) : (s.setY v).store = s.store := rfl
@[simp] theorem setY_via1 (v : Byte) : (s.setY v).via1 = s.via1 := rfl
@[simp] theorem setY_via2 (v : Byte) : (s.setY v).via2 = s.via2 := rfl
@[simp] theorem setY_via3 (v : Byte) : (s.setY v).via3 = s.via3 := rfl
@[simp] theorem setY_sc (v : Byte) : (s.setY v).sc = s.sc := rfl
@[simp] theorem setY_script (v : Byte) : (s.setY v).script = s.script := rfl
@[simp] theorem setY_dmaPlan (v : Byte) : (s.setY v).dmaPlan = s.dmaPlan := rfl
@[simp] theorem setY_dmaWait (v : Byte) : (s.setY v).dmaWait = s.dmaWait := rfl
@[simp] theorem setY_freeIndex (v : Byte) : (s.setY v).freeIndex = s.freeIndex := rfl
@[simp] theorem setY_via (v : Byte) (c : ViaId) : (s.setY v).via c = s.via c := by cases c <;> rfl

@[simp] theorem setSp_cfg (v : Byte) : (s.setSp v).cfg = s.cfg := rfl
@[simp] theorem setSp_a (v : Byte) : (s.setSp v).a = s.a := rfl
@[simp] theorem setSp_x (v : Byte) : (s.setSp v).x = s.x := rfl
@[simp] theorem setSp_y (v : Byte) : (s.setSp v).y = s.y := rfl
@[simp] theorem setSp_sp (v : Byte) : (s.setSp v).sp = v := rfl
@[simp] theorem setSp_p (v : Byte) : (s.setSp v).p = s.p := rfl
@[simp] theorem setSp_pc (v : Byte) : (s.setSp v).pc = s.pc := rfl
@[simp] theorem setSp_cyc (v : Byte) : (s.setSp v).cyc = s.cyc := rfl
@[simp] theorem setSp_nmiLatch (v : Byte) : (s.setSp v).nmiLatch = s.nmiLatch := rfl
@[simp] theorem setSp_lines (v : Byte) : (s.setSp v).lines = s.lines := rfl
@[simp] theorem setSp_mem (v : Byte) : (s.setSp v).mem = s.mem := rfl
@[simp] theorem setSp_store (v : Byte) : (s.setSp v).store = s.store := rfl
@[simp] theorem setSp_via1 (v : Byte) : (s.setSp v).via1 = s.via1 := rfl
@[simp] theorem setSp_via2 (v : Byte) : (s.setSp v).via2 = s.via2 := rfl
@[simp] theorem setSp_via3 (v : Byte) : (s.setSp v).via3 = s.via3 := rfl
@[simp] theorem setSp_sc (v : Byte) : (s.setSp v).sc = s.sc := rfl
@[simp] theorem setSp_script (v : Byte) : (s.setSp v).script = s.script := rfl
@[simp] theorem setSp_dmaPlan (v : Byte) : (s.setSp v).dmaPlan = s.dmaPlan := rfl
@[simp] theorem setSp_dmaWait (v : Byte) : (s.setSp v).dmaWait = s.dmaWait := rfl
@[simp] theorem setSp_freeIndex (v : Byte) : (s.setSp v).freeIndex = s.freeIndex := rfl
@[simp] theorem setSp_via (v : Byte) (c : ViaId) : (s.setSp v).via c = s.via c := by cases c <;> rfl

@[simp] theorem setP_cfg (v : Byte) : (s.setP v).cfg = s.cfg := rfl
@[simp] theorem setP_a (v : Byte) : (s.setP v).a = s.a := rfl
@[simp] theorem setP_x (v : Byte) : (s.setP v).x = s.x := rfl
@[simp] theorem setP_y (v : Byte) : (s.setP v).y = s.y := rfl
@[simp] theorem setP_sp (v : Byte) : (s.setP v).sp = s.sp := rfl
@[simp] theorem setP_p (v : Byte) : (s.setP v).p = v := rfl
@[simp] theorem setP_pc (v : Byte) : (s.setP v).pc = s.pc := rfl
@[simp] theorem setP_cyc (v : Byte) : (s.setP v).cyc = s.cyc := rfl
@[simp] theorem setP_nmiLatch (v : Byte) : (s.setP v).nmiLatch = s.nmiLatch := rfl
@[simp] theorem setP_lines (v : Byte) : (s.setP v).lines = s.lines := rfl
@[simp] theorem setP_mem (v : Byte) : (s.setP v).mem = s.mem := rfl
@[simp] theorem setP_store (v : Byte) : (s.setP v).store = s.store := rfl
@[simp] theorem setP_via1 (v : Byte) : (s.setP v).via1 = s.via1 := rfl
@[simp] theorem setP_via2 (v : Byte) : (s.setP v).via2 = s.via2 := rfl
@[simp] theorem setP_via3 (v : Byte) : (s.setP v).via3 = s.via3 := rfl
@[simp] theorem setP_sc (v : Byte) : (s.setP v).sc = s.sc := rfl
@[simp] theorem setP_script (v : Byte) : (s.setP v).script = s.script := rfl
@[simp] theorem setP_dmaPlan (v : Byte) : (s.setP v).dmaPlan = s.dmaPlan := rfl
@[simp] theorem setP_dmaWait (v : Byte) : (s.setP v).dmaWait = s.dmaWait := rfl
@[simp] theorem setP_freeIndex (v : Byte) : (s.setP v).freeIndex = s.freeIndex := rfl
@[simp] theorem setP_via (v : Byte) (c : ViaId) : (s.setP v).via c = s.via c := by cases c <;> rfl

@[simp] theorem setPc_cfg (v : Addr) : (s.setPc v).cfg = s.cfg := rfl
@[simp] theorem setPc_a (v : Addr) : (s.setPc v).a = s.a := rfl
@[simp] theorem setPc_x (v : Addr) : (s.setPc v).x = s.x := rfl
@[simp] theorem setPc_y (v : Addr) : (s.setPc v).y = s.y := rfl
@[simp] theorem setPc_sp (v : Addr) : (s.setPc v).sp = s.sp := rfl
@[simp] theorem setPc_p (v : Addr) : (s.setPc v).p = s.p := rfl
@[simp] theorem setPc_pc (v : Addr) : (s.setPc v).pc = v := rfl
@[simp] theorem setPc_cyc (v : Addr) : (s.setPc v).cyc = s.cyc := rfl
@[simp] theorem setPc_nmiLatch (v : Addr) : (s.setPc v).nmiLatch = s.nmiLatch := rfl
@[simp] theorem setPc_lines (v : Addr) : (s.setPc v).lines = s.lines := rfl
@[simp] theorem setPc_mem (v : Addr) : (s.setPc v).mem = s.mem := rfl
@[simp] theorem setPc_store (v : Addr) : (s.setPc v).store = s.store := rfl
@[simp] theorem setPc_via1 (v : Addr) : (s.setPc v).via1 = s.via1 := rfl
@[simp] theorem setPc_via2 (v : Addr) : (s.setPc v).via2 = s.via2 := rfl
@[simp] theorem setPc_via3 (v : Addr) : (s.setPc v).via3 = s.via3 := rfl
@[simp] theorem setPc_sc (v : Addr) : (s.setPc v).sc = s.sc := rfl
@[simp] theorem setPc_script (v : Addr) : (s.setPc v).script = s.script := rfl
@[simp] theorem setPc_dmaPlan (v : Addr) : (s.setPc v).dmaPlan = s.dmaPlan := rfl
@[simp] theorem setPc_dmaWait (v : Addr) : (s.setPc v).dmaWait = s.dmaWait := rfl
@[simp] theorem setPc_freeIndex (v : Addr) : (s.setPc v).freeIndex = s.freeIndex := rfl
@[simp] theorem setPc_via (v : Addr) (c : ViaId) : (s.setPc v).via c = s.via c := by cases c <;> rfl

@[simp] theorem charge_cfg (n : Nat) : (s.charge n).cfg = s.cfg := rfl
@[simp] theorem charge_a (n : Nat) : (s.charge n).a = s.a := rfl
@[simp] theorem charge_x (n : Nat) : (s.charge n).x = s.x := rfl
@[simp] theorem charge_y (n : Nat) : (s.charge n).y = s.y := rfl
@[simp] theorem charge_sp (n : Nat) : (s.charge n).sp = s.sp := rfl
@[simp] theorem charge_p (n : Nat) : (s.charge n).p = s.p := rfl
@[simp] theorem charge_pc (n : Nat) : (s.charge n).pc = s.pc := rfl
@[simp] theorem charge_cyc (n : Nat) : (s.charge n).cyc = s.cyc + n := rfl
@[simp] theorem charge_nmiLatch (n : Nat) : (s.charge n).nmiLatch = s.nmiLatch := rfl
@[simp] theorem charge_lines (n : Nat) : (s.charge n).lines = s.lines := rfl
@[simp] theorem charge_mem (n : Nat) : (s.charge n).mem = s.mem := rfl
@[simp] theorem charge_store (n : Nat) : (s.charge n).store = s.store := rfl
@[simp] theorem charge_via1 (n : Nat) : (s.charge n).via1 = s.via1 := rfl
@[simp] theorem charge_via2 (n : Nat) : (s.charge n).via2 = s.via2 := rfl
@[simp] theorem charge_via3 (n : Nat) : (s.charge n).via3 = s.via3 := rfl
@[simp] theorem charge_sc (n : Nat) : (s.charge n).sc = s.sc := rfl
@[simp] theorem charge_script (n : Nat) : (s.charge n).script = s.script := rfl
@[simp] theorem charge_dmaPlan (n : Nat) : (s.charge n).dmaPlan = s.dmaPlan := rfl
@[simp] theorem charge_dmaWait (n : Nat) : (s.charge n).dmaWait = s.dmaWait := rfl
@[simp] theorem charge_freeIndex (n : Nat) : (s.charge n).freeIndex = s.freeIndex := rfl
@[simp] theorem charge_via (n : Nat) (c : ViaId) : (s.charge n).via c = s.via c := by cases c <;> rfl

@[simp] theorem setNmiLatch_cfg (b : Bool) : (s.setNmiLatch b).cfg = s.cfg := rfl
@[simp] theorem setNmiLatch_a (b : Bool) : (s.setNmiLatch b).a = s.a := rfl
@[simp] theorem setNmiLatch_x (b : Bool) : (s.setNmiLatch b).x = s.x := rfl
@[simp] theorem setNmiLatch_y (b : Bool) : (s.setNmiLatch b).y = s.y := rfl
@[simp] theorem setNmiLatch_sp (b : Bool) : (s.setNmiLatch b).sp = s.sp := rfl
@[simp] theorem setNmiLatch_p (b : Bool) : (s.setNmiLatch b).p = s.p := rfl
@[simp] theorem setNmiLatch_pc (b : Bool) : (s.setNmiLatch b).pc = s.pc := rfl
@[simp] theorem setNmiLatch_cyc (b : Bool) : (s.setNmiLatch b).cyc = s.cyc := rfl
@[simp] theorem setNmiLatch_nmiLatch (b : Bool) : (s.setNmiLatch b).nmiLatch = b := rfl
@[simp] theorem setNmiLatch_lines (b : Bool) : (s.setNmiLatch b).lines = s.lines := rfl
@[simp] theorem setNmiLatch_mem (b : Bool) : (s.setNmiLatch b).mem = s.mem := rfl
@[simp] theorem setNmiLatch_store (b : Bool) : (s.setNmiLatch b).store = s.store := rfl
@[simp] theorem setNmiLatch_via1 (b : Bool) : (s.setNmiLatch b).via1 = s.via1 := rfl
@[simp] theorem setNmiLatch_via2 (b : Bool) : (s.setNmiLatch b).via2 = s.via2 := rfl
@[simp] theorem setNmiLatch_via3 (b : Bool) : (s.setNmiLatch b).via3 = s.via3 := rfl
@[simp] theorem setNmiLatch_sc (b : Bool) : (s.setNmiLatch b).sc = s.sc := rfl
@[simp] theorem setNmiLatch_script (b : Bool) : (s.setNmiLatch b).script = s.script := rfl
@[simp] theorem setNmiLatch_dmaPlan (b : Bool) : (s.setNmiLatch b).dmaPlan = s.dmaPlan := rfl
@[simp] theorem setNmiLatch_dmaWait (b : Bool) : (s.setNmiLatch b).dmaWait = s.dmaWait := rfl
@[simp] theorem setNmiLatch_freeIndex (b : Bool) : (s.setNmiLatch b).freeIndex = s.freeIndex := rfl
@[simp] theorem setNmiLatch_via (b : Bool) (c : ViaId) : (s.setNmiLatch b).via c = s.via c := by cases c <;> rfl

@[simp] theorem setLines_cfg (l : Lines) : (s.setLines l).cfg = s.cfg := rfl
@[simp] theorem setLines_a (l : Lines) : (s.setLines l).a = s.a := rfl
@[simp] theorem setLines_x (l : Lines) : (s.setLines l).x = s.x := rfl
@[simp] theorem setLines_y (l : Lines) : (s.setLines l).y = s.y := rfl
@[simp] theorem setLines_sp (l : Lines) : (s.setLines l).sp = s.sp := rfl
@[simp] theorem setLines_p (l : Lines) : (s.setLines l).p = s.p := rfl
@[simp] theorem setLines_pc (l : Lines) : (s.setLines l).pc = s.pc := rfl
@[simp] theorem setLines_cyc (l : Lines) : (s.setLines l).cyc = s.cyc := rfl
@[simp] theorem setLines_nmiLatch (l : Lines) : (s.setLines l).nmiLatch = s.nmiLatch := rfl
@[simp] theorem setLines_lines (l : Lines) : (s.setLines l).lines = l := rfl
@[simp] theorem setLines_mem (l : Lines) : (s.setLines l).mem = s.mem := rfl
@[simp] theorem setLines_store (l : Lines) : (s.setLines l).store = s.store := rfl
@[simp] theorem setLines_via1 (l : Lines) : (s.setLines l).via1 = s.via1 := rfl
@[simp] theorem setLines_via2 (l : Lines) : (s.setLines l).via2 = s.via2 := rfl
@[simp] theorem setLines_via3 (l : Lines) : (s.setLines l).via3 = s.via3 := rfl
@[simp] theorem setLines_sc (l : Lines) : (s.setLines l).sc = s.sc := rfl
@[simp] theorem setLines_script (l : Lines) : (s.setLines l).script = s.script := rfl
@[simp] theorem setLines_dmaPlan (l : Lines) : (s.setLines l).dmaPlan = s.dmaPlan := rfl
@[simp] theorem setLines_dmaWait (l : Lines) : (s.setLines l).dmaWait = s.dmaWait := rfl
@[simp] theorem setLines_freeIndex (l : Lines) : (s.setLines l).freeIndex = s.freeIndex := rfl
@[simp] theorem setLines_via (l : Lines) (c : ViaId) : (s.setLines l).via c = s.via c := by cases c <;> rfl

@[simp] theorem setMem_cfg (m : Memory) : (s.setMem m).cfg = s.cfg := rfl
@[simp] theorem setMem_a (m : Memory) : (s.setMem m).a = s.a := rfl
@[simp] theorem setMem_x (m : Memory) : (s.setMem m).x = s.x := rfl
@[simp] theorem setMem_y (m : Memory) : (s.setMem m).y = s.y := rfl
@[simp] theorem setMem_sp (m : Memory) : (s.setMem m).sp = s.sp := rfl
@[simp] theorem setMem_p (m : Memory) : (s.setMem m).p = s.p := rfl
@[simp] theorem setMem_pc (m : Memory) : (s.setMem m).pc = s.pc := rfl
@[simp] theorem setMem_cyc (m : Memory) : (s.setMem m).cyc = s.cyc := rfl
@[simp] theorem setMem_nmiLatch (m : Memory) : (s.setMem m).nmiLatch = s.nmiLatch := rfl
@[simp] theorem setMem_lines (m : Memory) : (s.setMem m).lines = s.lines := rfl
@[simp] theorem setMem_mem (m : Memory) : (s.setMem m).mem = m := rfl
@[simp] theorem setMem_store (m : Memory) : (s.setMem m).store = s.store := rfl
@[simp] theorem setMem_via1 (m : Memory) : (s.setMem m).via1 = s.via1 := rfl
@[simp] theorem setMem_via2 (m : Memory) : (s.setMem m).via2 = s.via2 := rfl
@[simp] theorem setMem_via3 (m : Memory) : (s.setMem m).via3 = s.via3 := rfl
@[simp] theorem setMem_sc (m : Memory) : (s.setMem m).sc = s.sc := rfl
@[simp] theorem setMem_script (m : Memory) : (s.setMem m).script = s.script := rfl
@[simp] theorem setMem_dmaPlan (m : Memory) : (s.setMem m).dmaPlan = s.dmaPlan := rfl
@[simp] theorem setMem_dmaWait (m : Memory) : (s.setMem m).dmaWait = s.dmaWait := rfl
@[simp] theorem setMem_freeIndex (m : Memory) : (s.setMem m).freeIndex = s.freeIndex := rfl
@[simp] theorem setMem_via (m : Memory) (c : ViaId) : (s.setMem m).via c = s.via c := by cases c <;> rfl

@[simp] theorem setStore_cfg (m : Memory) : (s.setStore m).cfg = s.cfg := rfl
@[simp] theorem setStore_a (m : Memory) : (s.setStore m).a = s.a := rfl
@[simp] theorem setStore_x (m : Memory) : (s.setStore m).x = s.x := rfl
@[simp] theorem setStore_y (m : Memory) : (s.setStore m).y = s.y := rfl
@[simp] theorem setStore_sp (m : Memory) : (s.setStore m).sp = s.sp := rfl
@[simp] theorem setStore_p (m : Memory) : (s.setStore m).p = s.p := rfl
@[simp] theorem setStore_pc (m : Memory) : (s.setStore m).pc = s.pc := rfl
@[simp] theorem setStore_cyc (m : Memory) : (s.setStore m).cyc = s.cyc := rfl
@[simp] theorem setStore_nmiLatch (m : Memory) : (s.setStore m).nmiLatch = s.nmiLatch := rfl
@[simp] theorem setStore_lines (m : Memory) : (s.setStore m).lines = s.lines := rfl
@[simp] theorem setStore_mem (m : Memory) : (s.setStore m).mem = s.mem := rfl
@[simp] theorem setStore_store (m : Memory) : (s.setStore m).store = m := rfl
@[simp] theorem setStore_via1 (m : Memory) : (s.setStore m).via1 = s.via1 := rfl
@[simp] theorem setStore_via2 (m : Memory) : (s.setStore m).via2 = s.via2 := rfl
@[simp] theorem setStore_via3 (m : Memory) : (s.setStore m).via3 = s.via3 := rfl
@[simp] theorem setStore_sc (m : Memory) : (s.setStore m).sc = s.sc := rfl
@[simp] theorem setStore_script (m : Memory) : (s.setStore m).script = s.script := rfl
@[simp] theorem setStore_dmaPlan (m : Memory) : (s.setStore m).dmaPlan = s.dmaPlan := rfl
@[simp] theorem setStore_dmaWait (m : Memory) : (s.setStore m).dmaWait = s.dmaWait := rfl
@[simp] theorem setStore_freeIndex (m : Memory) : (s.setStore m).freeIndex = s.freeIndex := rfl
@[simp] theorem setStore_via (m : Memory) (c : ViaId) : (s.setStore m).via c = s.via c := by cases c <;> rfl

@[simp] theorem setSc_cfg (k : StorageCtl) : (s.setSc k).cfg = s.cfg := rfl
@[simp] theorem setSc_a (k : StorageCtl) : (s.setSc k).a = s.a := rfl
@[simp] theorem setSc_x (k : StorageCtl) : (s.setSc k).x = s.x := rfl
@[simp] theorem setSc_y (k : StorageCtl) : (s.setSc k).y = s.y := rfl
@[simp] theorem setSc_sp (k : StorageCtl) : (s.setSc k).sp = s.sp := rfl
@[simp] theorem setSc_p (k : StorageCtl) : (s.setSc k).p = s.p := rfl
@[simp] theorem setSc_pc (k : StorageCtl) : (s.setSc k).pc = s.pc := rfl
@[simp] theorem setSc_cyc (k : StorageCtl) : (s.setSc k).cyc = s.cyc := rfl
@[simp] theorem setSc_nmiLatch (k : StorageCtl) : (s.setSc k).nmiLatch = s.nmiLatch := rfl
@[simp] theorem setSc_lines (k : StorageCtl) : (s.setSc k).lines = s.lines := rfl
@[simp] theorem setSc_mem (k : StorageCtl) : (s.setSc k).mem = s.mem := rfl
@[simp] theorem setSc_store (k : StorageCtl) : (s.setSc k).store = s.store := rfl
@[simp] theorem setSc_via1 (k : StorageCtl) : (s.setSc k).via1 = s.via1 := rfl
@[simp] theorem setSc_via2 (k : StorageCtl) : (s.setSc k).via2 = s.via2 := rfl
@[simp] theorem setSc_via3 (k : StorageCtl) : (s.setSc k).via3 = s.via3 := rfl
@[simp] theorem setSc_sc (k : StorageCtl) : (s.setSc k).sc = k := rfl
@[simp] theorem setSc_script (k : StorageCtl) : (s.setSc k).script = s.script := rfl
@[simp] theorem setSc_dmaPlan (k : StorageCtl) : (s.setSc k).dmaPlan = s.dmaPlan := rfl
@[simp] theorem setSc_dmaWait (k : StorageCtl) : (s.setSc k).dmaWait = s.dmaWait := rfl
@[simp] theorem setSc_freeIndex (k : StorageCtl) : (s.setSc k).freeIndex = s.freeIndex := rfl
@[simp] theorem setSc_via (k : StorageCtl) (c : ViaId) : (s.setSc k).via c = s.via c := by cases c <;> rfl

@[simp] theorem setScript_cfg (l : List Turn) : (s.setScript l).cfg = s.cfg := rfl
@[simp] theorem setScript_a (l : List Turn) : (s.setScript l).a = s.a := rfl
@[simp] theorem setScript_x (l : List Turn) : (s.setScript l).x = s.x := rfl
@[simp] theorem setScript_y (l : List Turn) : (s.setScript l).y = s.y := rfl
@[simp] theorem setScript_sp (l : List Turn) : (s.setScript l).sp = s.sp := rfl
@[simp] theorem setScript_p (l : List Turn) : (s.setScript l).p = s.p := rfl
@[simp] theorem setScript_pc (l : List Turn) : (s.setScript l).pc = s.pc := rfl
@[simp] theorem setScript_cyc (l : List Turn) : (s.setScript l).cyc = s.cyc := rfl
@[simp] theorem setScript_nmiLatch (l : List Turn) : (s.setScript l).nmiLatch = s.nmiLatch := rfl
@[simp] theorem setScript_lines (l : List Turn) : (s.setScript l).lines = s.lines := rfl
@[simp] theorem setScript_mem (l : List Turn) : (s.setScript l).mem = s.mem := rfl
@[simp] theorem setScript_store (l : List Turn) : (s.setScript l).store = s.store := rfl
@[simp] theorem setScript_via1 (l : List Turn) : (s.setScript l).via1 = s.via1 := rfl
@[simp] theorem setScript_via2 (l : List Turn) : (s.setScript l).via2 = s.via2 := rfl
@[simp] theorem setScript_via3 (l : List Turn) : (s.setScript l).via3 = s.via3 := rfl
@[simp] theorem setScript_sc (l : List Turn) : (s.setScript l).sc = s.sc := rfl
@[simp] theorem setScript_script (l : List Turn) : (s.setScript l).script = l := rfl
@[simp] theorem setScript_dmaPlan (l : List Turn) : (s.setScript l).dmaPlan = s.dmaPlan := rfl
@[simp] theorem setScript_dmaWait (l : List Turn) : (s.setScript l).dmaWait = s.dmaWait := rfl
@[simp] theorem setScript_freeIndex (l : List Turn) : (s.setScript l).freeIndex = s.freeIndex := rfl
@[simp] theorem setScript_via (l : List Turn) (c : ViaId) : (s.setScript l).via c = s.via c := by cases c <;> rfl

@[simp] theorem setDmaPlan_cfg (l : List Nat) : (s.setDmaPlan l).cfg = s.cfg := rfl
@[simp] theorem setDmaPlan_a (l : List Nat) : (s.setDmaPlan l).a = s.a := rfl
@[simp] theorem setDmaPlan_x (l : List Nat) : (s.setDmaPlan l).x = s.x := rfl
@[simp] theorem setDmaPlan_y (l : List Nat) : (s.setDmaPlan l).y = s.y := rfl
@[simp] theorem setDmaPlan_sp (l : List Nat) : (s.setDmaPlan l).sp = s.sp := rfl
@[simp] theorem setDmaPlan_p (l : List Nat) : (s.setDmaPlan l).p = s.p := rfl
@[simp] theorem setDmaPlan_pc (l : List Nat) : (s.setDmaPlan l).pc = s.pc := rfl
@[simp] theorem setDmaPlan_cyc (l : List Nat) : (s.setDmaPlan l).cyc = s.cyc := rfl
@[simp] theorem setDmaPlan_nmiLatch (l : List Nat) : (s.setDmaPlan l).nmiLatch = s.nmiLatch := rfl
@[simp] theorem setDmaPlan_lines (l : List Nat) : (s.setDmaPlan l).lines = s.lines := rfl
@[simp] theorem setDmaPlan_mem (l : List Nat) : (s.setDmaPlan l).mem = s.mem := rfl
@[simp] theorem setDmaPlan_store (l : List Nat) : (s.setDmaPlan l).store = s.store := rfl
@[simp] theorem setDmaPlan_via1 (l : List Nat) : (s.setDmaPlan l).via1 = s.via1 := rfl
@[simp] theorem setDmaPlan_via2 (l : List Nat) : (s.setDmaPlan l).via2 = s.via2 := rfl
@[simp] theorem setDmaPlan_via3 (l : List Nat) : (s.setDmaPlan l).via3 = s.via3 := rfl
@[simp] theorem setDmaPlan_sc (l : List Nat) : (s.setDmaPlan l).sc = s.sc := rfl
@[simp] theorem setDmaPlan_script (l : List Nat) : (s.setDmaPlan l).script = s.script := rfl
@[simp] theorem setDmaPlan_dmaPlan (l : List Nat) : (s.setDmaPlan l).dmaPlan = l := rfl
@[simp] theorem setDmaPlan_dmaWait (l : List Nat) : (s.setDmaPlan l).dmaWait = s.dmaWait := rfl
@[simp] theorem setDmaPlan_freeIndex (l : List Nat) : (s.setDmaPlan l).freeIndex = s.freeIndex := rfl
@[simp] theorem setDmaPlan_via (l : List Nat) (c : ViaId) : (s.setDmaPlan l).via c = s.via c := by cases c <;> rfl

@[simp] theorem setDmaWait_cfg (w : Option Nat) : (s.setDmaWait w).cfg = s.cfg := rfl
@[simp] theorem setDmaWait_a (w : Option Nat) : (s.setDmaWait w).a = s.a := rfl
@[simp] theorem setDmaWait_x (w : Option Nat) : (s.setDmaWait w).x = s.x := rfl
@[simp] theorem setDmaWait_y (w : Option Nat) : (s.setDmaWait w).y = s.y := rfl
@[simp] theorem setDmaWait_sp (w : Option Nat) : (s.setDmaWait w).sp = s.sp := rfl
@[simp] theorem setDmaWait_p (w : Option Nat) : (s.setDmaWait w).p = s.p := rfl
@[simp] theorem setDmaWait_pc (w : Option Nat) : (s.setDmaWait w).pc = s.pc := rfl
@[simp] theorem setDmaWait_cyc (w : Option Nat) : (s.setDmaWait w).cyc = s.cyc := rfl
@[simp] theorem setDmaWait_nmiLatch (w : Option Nat) : (s.setDmaWait w).nmiLatch = s.nmiLatch := rfl
@[simp] theorem setDmaWait_lines (w : Option Nat) : (s.setDmaWait w).lines = s.lines := rfl
@[simp] theorem setDmaWait_mem (w : Option Nat) : (s.setDmaWait w).mem = s.mem := rfl
@[simp] theorem setDmaWait_store (w : Option Nat) : (s.setDmaWait w).store = s.store := rfl
@[simp] theorem setDmaWait_via1 (w : Option Nat) : (s.setDmaWait w).via1 = s.via1 := rfl
@[simp] theorem setDmaWait_via2 (w : Option Nat) : (s.setDmaWait w).via2 = s.via2 := rfl
@[simp] theorem setDmaWait_via3 (w : Option Nat) : (s.setDmaWait w).via3 = s.via3 := rfl
@[simp] theorem setDmaWait_sc (w : Option Nat) : (s.setDmaWait w).sc = s.sc := rfl
@[simp] theorem setDmaWait_script (w : Option Nat) : (s.setDmaWait w).script = s.script := rfl
@[simp] theorem setDmaWait_dmaPlan (w : Option Nat) : (s.setDmaWait w).dmaPlan = s.dmaPlan := rfl
@[simp] theorem setDmaWait_dmaWait (w : Option Nat) : (s.setDmaWait w).dmaWait = w := rfl
@[simp] theorem setDmaWait_freeIndex (w : Option Nat) : (s.setDmaWait w).freeIndex = s.freeIndex := rfl
@[simp] theorem setDmaWait_via (w : Option Nat) (c : ViaId) : (s.setDmaWait w).via c = s.via c := by cases c <;> rfl

@[simp] theorem drawFree_cfg : (s.drawFree).cfg = s.cfg := rfl
@[simp] theorem drawFree_a : (s.drawFree).a = s.a := rfl
@[simp] theorem drawFree_x : (s.drawFree).x = s.x := rfl
@[simp] theorem drawFree_y : (s.drawFree).y = s.y := rfl
@[simp] theorem drawFree_sp : (s.drawFree).sp = s.sp := rfl
@[simp] theorem drawFree_p : (s.drawFree).p = s.p := rfl
@[simp] theorem drawFree_pc : (s.drawFree).pc = s.pc := rfl
@[simp] theorem drawFree_cyc : (s.drawFree).cyc = s.cyc := rfl
@[simp] theorem drawFree_nmiLatch : (s.drawFree).nmiLatch = s.nmiLatch := rfl
@[simp] theorem drawFree_lines : (s.drawFree).lines = s.lines := rfl
@[simp] theorem drawFree_mem : (s.drawFree).mem = s.mem := rfl
@[simp] theorem drawFree_store : (s.drawFree).store = s.store := rfl
@[simp] theorem drawFree_via1 : (s.drawFree).via1 = s.via1 := rfl
@[simp] theorem drawFree_via2 : (s.drawFree).via2 = s.via2 := rfl
@[simp] theorem drawFree_via3 : (s.drawFree).via3 = s.via3 := rfl
@[simp] theorem drawFree_sc : (s.drawFree).sc = s.sc := rfl
@[simp] theorem drawFree_script : (s.drawFree).script = s.script := rfl
@[simp] theorem drawFree_dmaPlan : (s.drawFree).dmaPlan = s.dmaPlan := rfl
@[simp] theorem drawFree_dmaWait : (s.drawFree).dmaWait = s.dmaWait := rfl
@[simp] theorem drawFree_freeIndex : (s.drawFree).freeIndex = s.freeIndex + 1 := rfl
@[simp] theorem drawFree_via (c : ViaId) : (s.drawFree).via c = s.via c := by cases c <;> rfl

@[simp] theorem setVia_cfg (c : ViaId) (v : Via) : (s.setVia c v).cfg = s.cfg := by cases c <;> rfl
@[simp] theorem setVia_a (c : ViaId) (v : Via) : (s.setVia c v).a = s.a := by cases c <;> rfl
@[simp] theorem setVia_x (c : ViaId) (v : Via) : (s.setVia c v).x = s.x := by cases c <;> rfl
@[simp] theorem setVia_y (c : ViaId) (v : Via) : (s.setVia c v).y = s.y := by cases c <;> rfl
@[simp] theorem setVia_sp (c : ViaId) (v : Via) : (s.setVia c v).sp = s.sp := by cases c <;> rfl
@[simp] theorem setVia_p (c : ViaId) (v : Via) : (s.setVia c v).p = s.p := by cases c <;> rfl
@[simp] theorem setVia_pc (c : ViaId) (v : Via) : (s.setVia c v).pc = s.pc := by cases c <;> rfl
@[simp] theorem setVia_cyc (c : ViaId) (v : Via) : (s.setVia c v).cyc = s.cyc := by cases c <;> rfl
@[simp] theorem setVia_nmiLatch (c : ViaId) (v : Via) : (s.setVia c v).nmiLatch = s.nmiLatch := by cases c <;> rfl
@[simp] theorem setVia_lines (c : ViaId) (v : Via) : (s.setVia c v).lines = s.lines := by cases c <;> rfl
@[simp] theorem setVia_mem (c : ViaId) (v : Via) : (s.setVia c v).mem = s.mem := by cases c <;> rfl
@[simp] theorem setVia_store (c : ViaId) (v : Via) : (s.setVia c v).store = s.store := by cases c <;> rfl
@[simp] theorem setVia_sc (c : ViaId) (v : Via) : (s.setVia c v).sc = s.sc := by cases c <;> rfl
@[simp] theorem setVia_script (c : ViaId) (v : Via) : (s.setVia c v).script = s.script := by cases c <;> rfl
@[simp] theorem setVia_dmaPlan (c : ViaId) (v : Via) : (s.setVia c v).dmaPlan = s.dmaPlan := by cases c <;> rfl
@[simp] theorem setVia_dmaWait (c : ViaId) (v : Via) : (s.setVia c v).dmaWait = s.dmaWait := by cases c <;> rfl
@[simp] theorem setVia_freeIndex (c : ViaId) (v : Via) : (s.setVia c v).freeIndex = s.freeIndex := by cases c <;> rfl

@[simp] theorem setVia_via_same (c : ViaId) (v : Via) : (s.setVia c v).via c = v := by cases c <;> rfl

theorem setVia_via_ne {c d : ViaId} (h : d ≠ c) (v : Via) : (s.setVia c v).via d = s.via d := by
  cases c <;> cases d <;> first | rfl | exact absurd rfl h

/-- Reading an instance after replacing one. -/
theorem setVia_via (c d : ViaId) (v : Via) : (s.setVia c v).via d = if d = c then v else s.via d := by
  cases c <;> cases d <;> rfl

@[simp] theorem setVia_setVia (c : ViaId) (v w : Via) : (s.setVia c v).setVia c w = s.setVia c w := by
  cases c <;> rfl

@[simp] theorem setVia_self (c : ViaId) : s.setVia c (s.via c) = s := by cases c <;> rfl

/-- Two states with equal fields outside the VIAs and equal instances are equal. -/
theorem eq_of_via {t : State} (hv : ∀ c, t.via c = s.via c) (h : { t with via1 := s.via1, via2 := s.via2, via3 := s.via3 } = s) :
    t = s := by
  have h1 : t.via1 = s.via1 := hv .via1
  have h2 : t.via2 = s.via2 := hv .via2
  have h3 : t.via3 = s.via3 := hv .via3
  rw [← h1, ← h2, ← h3] at h
  exact h

end Sys2Proof.Machine.State
end

