-- ==== Sys2Proof/Laws/Access.lean ====
section
/-! SUPPORT. No Bus access and no step of the DMA agent changes a CPU register, a line, a parameter or the coming turns: one
lemma per operation, each citing the one below it. -/

namespace Sys2Proof.Machine

theorem SameCpu.refl (s : State) : SameCpu s s := ⟨rfl, rfl, rfl, rfl, rfl, rfl, rfl, rfl, rfl, rfl, rfl⟩

theorem SameCpu.trans {s t u : State} (h : SameCpu s t) (k : SameCpu t u) : SameCpu s u :=
  ⟨k.cfg.trans h.cfg, k.a.trans h.a, k.x.trans h.x, k.y.trans h.y, k.sp.trans h.sp, k.p.trans h.p, k.pc.trans h.pc,
    k.cyc.trans h.cyc, k.nmiLatch.trans h.nmiLatch, k.lines.trans h.lines, k.script.trans h.script⟩

theorem setVia_sameCpu (c : ViaId) (v : Via) (s : State) : SameCpu s (s.setVia c v) := by
  cases c <;> exact ⟨rfl, rfl, rfl, rfl, rfl, rfl, rfl, rfl, rfl, rfl, rfl⟩

theorem setMem_sameCpu (m : Memory) (s : State) : SameCpu s (s.setMem m) :=
  ⟨rfl, rfl, rfl, rfl, rfl, rfl, rfl, rfl, rfl, rfl, rfl⟩

theorem setStore_sameCpu (m : Memory) (s : State) : SameCpu s (s.setStore m) :=
  ⟨rfl, rfl, rfl, rfl, rfl, rfl, rfl, rfl, rfl, rfl, rfl⟩

theorem setSc_sameCpu (k : StorageCtl) (s : State) : SameCpu s (s.setSc k) :=
  ⟨rfl, rfl, rfl, rfl, rfl, rfl, rfl, rfl, rfl, rfl, rfl⟩

theorem setDmaPlan_sameCpu (l : List Nat) (s : State) : SameCpu s (s.setDmaPlan l) :=
  ⟨rfl, rfl, rfl, rfl, rfl, rfl, rfl, rfl, rfl, rfl, rfl⟩

theorem setDmaWait_sameCpu (w : Option Nat) (s : State) : SameCpu s (s.setDmaWait w) :=
  ⟨rfl, rfl, rfl, rfl, rfl, rfl, rfl, rfl, rfl, rfl, rfl⟩

theorem drawFree_sameCpu (s : State) : SameCpu s s.drawFree :=
  ⟨rfl, rfl, rfl, rfl, rfl, rfl, rfl, rfl, rfl, rfl, rfl⟩

theorem ramWrite_sameCpu (a : Addr) (v : Byte) (s : State) : SameCpu s (ramWrite a v s) := setMem_sameCpu _ s

theorem assertCl1_sameCpu (c : ViaId) (s : State) : SameCpu s (assertCl1 c s) := setVia_sameCpu c _ s

theorem scCopyByte_sameCpu (i : Nat) (s : State) : SameCpu s (scCopyByte i s) := by
  simp only [scCopyByte]
  split
  · exact ramWrite_sameCpu _ _ s
  · exact setStore_sameCpu _ s

theorem scFinish_sameCpu (s : State) : SameCpu s (scFinish s) :=
  (assertCl1_sameCpu _ s).trans (setSc_sameCpu _ _)

theorem scCopyRun_sameCpu (n : Nat) : ∀ (i : Nat) (s : State), SameCpu s (scCopyRun i n s) := by
  induction n with
  | zero => exact fun i s => SameCpu.refl s
  | succ n ih => exact fun i s => (scCopyByte_sameCpu i s).trans (ih _ _)

theorem scTransfer_sameCpu (s : State) : SameCpu s (scTransfer s) :=
  (scCopyRun_sameCpu _ 0 s).trans (scFinish_sameCpu _)

theorem scStart_sameCpu (c : Companion) (s : State) : SameCpu s (scStart c s) := by
  cases c
  · exact (setSc_sameCpu _ s).trans (scTransfer_sameCpu _)
  · exact setSc_sameCpu _ s

theorem scCommit_sameCpu (c : Companion) (s : State) : SameCpu s (scCommit c s) := by
  simp only [scCommit]
  split
  · exact setSc_sameCpu _ s
  · split
    · exact setSc_sameCpu _ s
    · split
      · exact (setSc_sameCpu _ s).trans (scStart_sameCpu c _)
      · exact setSc_sameCpu _ s

theorem scWriteByte_sameCpu (b : Byte) (c : Companion) (s : State) : SameCpu s (scWriteByte b c s) := by
  simp only [scWriteByte]
  split
  · exact setSc_sameCpu _ s
  · exact setSc_sameCpu _ s
  · split
    · exact (setSc_sameCpu _ s).trans (scCommit_sameCpu c _)
    · exact setSc_sameCpu _ s

theorem dmaStep_sameCpu (s : State) : SameCpu s (dmaStep s) := by
  simp only [dmaStep]
  split
  · exact scTransfer_sameCpu s
  · split
    · exact (scCopyByte_sameCpu _ s).trans (setSc_sameCpu _ _)
    · exact scFinish_sameCpu s

theorem dmaSteps_sameCpu (n : Nat) : ∀ s : State, SameCpu s (dmaSteps n s) := by
  induction n with
  | zero => exact SameCpu.refl
  | succ n ih =>
    intro s
    simp only [dmaSteps]
    split
    · exact (dmaStep_sameCpu s).trans (ih _)
    · exact SameCpu.refl s

theorem dmaFreeTurn_sameCpu (s : State) : SameCpu s (dmaFreeTurn s) := by
  simp only [dmaFreeTurn]
  split
  · exact ((setDmaWait_sameCpu none s).trans (drawFree_sameCpu _)).trans (dmaSteps_sameCpu _ _)
  · exact setDmaWait_sameCpu _ s

theorem dmaTurn_sameCpu (s : State) : SameCpu s (dmaTurn s) := by
  simp only [dmaTurn]
  split
  · split
    · exact (setDmaPlan_sameCpu _ s).trans (dmaSteps_sameCpu _ _)
    · exact dmaFreeTurn_sameCpu s
  · exact SameCpu.refl s

theorem viaRead_sameCpu (c : ViaId) (o : BitVec 4) (s : State) : SameCpu s (viaRead c o s).2 := by
  simp only [viaRead]
  split
  · exact setVia_sameCpu c _ s
  · exact SameCpu.refl s
  · exact SameCpu.refl s
  · exact SameCpu.refl s
  · exact SameCpu.refl s
  · exact drawFree_sameCpu s

theorem feed_sameCpu (c : ViaId) (p : Port) (v : Byte) (s : State) : SameCpu s (feed c p v s) := by
  simp only [feed]
  split
  · split
    · exact scWriteByte_sameCpu v _ s
    · exact SameCpu.refl s
  · exact SameCpu.refl s

theorem viaWrite_sameCpu (c : ViaId) (o : BitVec 4) (v : Byte) (s : State) : SameCpu s (viaWrite c o v s) := by
  simp only [viaWrite]
  split
  · exact (setVia_sameCpu c _ s).trans (feed_sameCpu c _ v _)
  · exact setVia_sameCpu c _ s
  · exact setVia_sameCpu c _ s
  · exact setVia_sameCpu c _ s
  · exact setVia_sameCpu c _ s
  · exact SameCpu.refl s

theorem busRead_sameCpu (a : Addr) (s : State) : SameCpu s (busRead a s).2 := by
  simp only [busRead]
  split
  · exact viaRead_sameCpu _ _ s
  · exact SameCpu.refl s

theorem busWrite_sameCpu (a : Addr) (v : Byte) (s : State) : SameCpu s (busWrite a v s) := by
  simp only [busWrite]
  split
  · exact viaWrite_sameCpu _ _ v s
  · exact ramWrite_sameCpu a v s

theorem memRead_sameCpu (a : Addr) (s : State) : SameCpu s (memRead a s).2 :=
  (dmaTurn_sameCpu s).trans (busRead_sameCpu a _)

theorem memWrite_sameCpu (a : Addr) (v : Byte) (s : State) : SameCpu s (memWrite a v s) :=
  (dmaTurn_sameCpu s).trans (busWrite_sameCpu a v _)

theorem read16_sameCpu (a : Addr) (s : State) : SameCpu s (read16 a s).2 :=
  (memRead_sameCpu a s).trans (memRead_sameCpu (a + 1) _)

theorem read16zp_sameCpu (z : Byte) (s : State) : SameCpu s (read16zp z s).2 :=
  (memRead_sameCpu (zext16 z) s).trans (memRead_sameCpu (zext16 (z + 1)) _)

theorem effAddr_sameCpu (m : Mode) (s : State) : SameCpu s (effAddr m s).st := by
  cases m with
  | zpi z => exact read16zp_sameCpu z s
  | izx z => exact read16zp_sameCpu (z + s.x) s
  | izy z => exact read16zp_sameCpu z s
  | ind a => exact read16_sameCpu a s
  | iax a => exact read16_sameCpu (a + zext16 s.x) s
  | _ => exact SameCpu.refl s

theorem operandAt_sameCpu (m : Mode) (s : State) : SameCpu s (operandAt m s).2 := by
  cases m with
  | acc => exact SameCpu.refl s
  | imm v => exact SameCpu.refl s
  | _ => exact (effAddr_sameCpu _ s).trans (memRead_sameCpu _ _)

theorem storeOperand_sameCpu (m : Mode) (v : Byte) (s : State) : SameCpu s (storeOperand m v s) :=
  (effAddr_sameCpu m s).trans (memWrite_sameCpu _ v _)

/-- What `readOperand` answers: the operand of `operandAt`, and whether indexing crossed a page. -/
theorem readOperand_eq (m : Mode) (s : State) :
    readOperand m s = ⟨(operandAt m s).1, (effAddr m s).crossed, (operandAt m s).2⟩ := by
  cases m <;> rfl

/-! ### The same, field by field -/

@[simp] theorem dmaTurn_cfg (s : State) : (dmaTurn s).cfg = s.cfg := (dmaTurn_sameCpu s).cfg
@[simp] theorem dmaTurn_a (s : State) : (dmaTurn s).a = s.a := (dmaTurn_sameCpu s).a
@[simp] theorem dmaTurn_x (s : State) : (dmaTurn s).x = s.x := (dmaTurn_sameCpu s).x
@[simp] theorem dmaTurn_y (s : State) : (dmaTurn s).y = s.y := (dmaTurn_sameCpu s).y
@[simp] theorem dmaTurn_sp (s : State) : (dmaTurn s).sp = s.sp := (dmaTurn_sameCpu s).sp
@[simp] theorem dmaTurn_p (s : State) : (dmaTurn s).p = s.p := (dmaTurn_sameCpu s).p
@[simp] theorem dmaTurn_pc (s : State) : (dmaTurn s).pc = s.pc := (dmaTurn_sameCpu s).pc
@[simp] theorem dmaTurn_cyc (s : State) : (dmaTurn s).cyc = s.cyc := (dmaTurn_sameCpu s).cyc
@[simp] theorem dmaTurn_nmiLatch (s : State) : (dmaTurn s).nmiLatch = s.nmiLatch := (dmaTurn_sameCpu s).nmiLatch
@[simp] theorem dmaTurn_lines (s : State) : (dmaTurn s).lines = s.lines := (dmaTurn_sameCpu s).lines
@[simp] theorem dmaTurn_script (s : State) : (dmaTurn s).script = s.script := (dmaTurn_sameCpu s).script

@[simp] theorem memRead_cfg (b : Addr) (s : State) : (memRead b s).2.cfg = s.cfg := (memRead_sameCpu b s).cfg
@[simp] theorem memRead_a (b : Addr) (s : State) : (memRead b s).2.a = s.a := (memRead_sameCpu b s).a
@[simp] theorem memRead_x (b : Addr) (s : State) : (memRead b s).2.x = s.x := (memRead_sameCpu b s).x
@[simp] theorem memRead_y (b : Addr) (s : State) : (memRead b s).2.y = s.y := (memRead_sameCpu b s).y
@[simp] theorem memRead_sp (b : Addr) (s : State) : (memRead b s).2.sp = s.sp := (memRead_sameCpu b s).sp
@[simp] theorem memRead_p (b : Addr) (s : State) : (memRead b s).2.p = s.p := (memRead_sameCpu b s).p
@[simp] theorem memRead_pc (b : Addr) (s : State) : (memRead b s).2.pc = s.pc := (memRead_sameCpu b s).pc
@[simp] theorem memRead_cyc (b : Addr) (s : State) : (memRead b s).2.cyc = s.cyc := (memRead_sameCpu b s).cyc
@[simp] theorem memRead_nmiLatch (b : Addr) (s : State) : (memRead b s).2.nmiLatch = s.nmiLatch := (memRead_sameCpu b s).nmiLatch
@[simp] theorem memRead_lines (b : Addr) (s : State) : (memRead b s).2.lines = s.lines := (memRead_sameCpu b s).lines
@[simp] theorem memRead_script (b : Addr) (s : State) : (memRead b s).2.script = s.script := (memRead_sameCpu b s).script

@[simp] theorem memWrite_cfg (b : Addr) (v : Byte) (s : State) : (memWrite b v s).cfg = s.cfg := (memWrite_sameCpu b v s).cfg
@[simp] theorem memWrite_a (b : Addr) (v : Byte) (s : State) : (memWrite b v s).a = s.a := (memWrite_sameCpu b v s).a
@[simp] theorem memWrite_x (b : Addr) (v : Byte) (s : State) : (memWrite b v s).x = s.x := (memWrite_sameCpu b v s).x
@[simp] theorem memWrite_y (b : Addr) (v : Byte) (s : State) : (memWrite b v s).y = s.y := (memWrite_sameCpu b v s).y
@[simp] theorem memWrite_sp (b : Addr) (v : Byte) (s : State) : (memWrite b v s).sp = s.sp := (memWrite_sameCpu b v s).sp
@[simp] theorem memWrite_p (b : Addr) (v : Byte) (s : State) : (memWrite b v s).p = s.p := (memWrite_sameCpu b v s).p
@[simp] theorem memWrite_pc (b : Addr) (v : Byte) (s : State) : (memWrite b v s).pc = s.pc := (memWrite_sameCpu b v s).pc
@[simp] theorem memWrite_cyc (b : Addr) (v : Byte) (s : State) : (memWrite b v s).cyc = s.cyc := (memWrite_sameCpu b v s).cyc
@[simp] theorem memWrite_nmiLatch (b : Addr) (v : Byte) (s : State) : (memWrite b v s).nmiLatch = s.nmiLatch := (memWrite_sameCpu b v s).nmiLatch
@[simp] theorem memWrite_lines (b : Addr) (v : Byte) (s : State) : (memWrite b v s).lines = s.lines := (memWrite_sameCpu b v s).lines
@[simp] theorem memWrite_script (b : Addr) (v : Byte) (s : State) : (memWrite b v s).script = s.script := (memWrite_sameCpu b v s).script

@[simp] theorem read16_cfg (b : Addr) (s : State) : (read16 b s).2.cfg = s.cfg := (read16_sameCpu b s).cfg
@[simp] theorem read16_a (b : Addr) (s : State) : (read16 b s).2.a = s.a := (read16_sameCpu b s).a
@[simp] theorem read16_x (b : Addr) (s : State) : (read16 b s).2.x = s.x := (read16_sameCpu b s).x
@[simp] theorem read16_y (b : Addr) (s : State) : (read16 b s).2.y = s.y := (read16_sameCpu b s).y
@[simp] theorem read16_sp (b : Addr) (s : State) : (read16 b s).2.sp = s.sp := (read16_sameCpu b s).sp
@[simp] theorem read16_p (b : Addr) (s : State) : (read16 b s).2.p = s.p := (read16_sameCpu b s).p
@[simp] theorem read16_pc (b : Addr) (s : State) : (read16 b s).2.pc = s.pc := (read16_sameCpu b s).pc
@[simp] theorem read16_cyc (b : Addr) (s : State) : (read16 b s).2.cyc = s.cyc := (read16_sameCpu b s).cyc
@[simp] theorem read16_nmiLatch (b : Addr) (s : State) : (read16 b s).2.nmiLatch = s.nmiLatch := (read16_sameCpu b s).nmiLatch
@[simp] theorem read16_lines (b : Addr) (s : State) : (read16 b s).2.lines = s.lines := (read16_sameCpu b s).lines
@[simp] theorem read16_script (b : Addr) (s : State) : (read16 b s).2.script = s.script := (read16_sameCpu b s).script

@[simp] theorem effAddr_cfg (m : Mode) (s : State) : (effAddr m s).st.cfg = s.cfg := (effAddr_sameCpu m s).cfg
@[simp] theorem effAddr_a (m : Mode) (s : State) : (effAddr m s).st.a = s.a := (effAddr_sameCpu m s).a
@[simp] theorem effAddr_x (m : Mode) (s : State) : (effAddr m s).st.x = s.x := (effAddr_sameCpu m s).x
@[simp] theorem effAddr_y (m : Mode) (s : State) : (effAddr m s).st.y = s.y := (effAddr_sameCpu m s).y
@[simp] theorem effAddr_sp (m : Mode) (s : State) : (effAddr m s).st.sp = s.sp := (effAddr_sameCpu m s).sp
@[simp] theorem effAddr_p (m : Mode) (s : State) : (effAddr m s).st.p = s.p := (effAddr_sameCpu m s).p
@[simp] theorem effAddr_pc (m : Mode) (s : State) : (effAddr m s).st.pc = s.pc := (effAddr_sameCpu m s).pc
@[simp] theorem effAddr_cyc (m : Mode) (s : State) : (effAddr m s).st.cyc = s.cyc := (effAddr_sameCpu m s).cyc
@[simp] theorem effAddr_nmiLatch (m : Mode) (s : State) : (effAddr m s).st.nmiLatch = s.nmiLatch := (effAddr_sameCpu m s).nmiLatch
@[simp] theorem effAddr_lines (m : Mode) (s : State) : (effAddr m s).st.lines = s.lines := (effAddr_sameCpu m s).lines
@[simp] theorem effAddr_script (m : Mode) (s : State) : (effAddr m s).st.script = s.script := (effAddr_sameCpu m s).script

@[simp] theorem operandAt_cfg (m : Mode) (s : State) : (operandAt m s).2.cfg = s.cfg := (operandAt_sameCpu m s).cfg
@[simp] theorem operandAt_a (m : Mode) (s : State) : (operandAt m s).2.a = s.a := (operandAt_sameCpu m s).a
@[simp] theorem operandAt_x (m : Mode) (s : State) : (operandAt m s).2.x = s.x := (operandAt_sameCpu m s).x
@[simp] theorem operandAt_y (m : Mode) (s : State) : (operandAt m s).2.y = s.y := (operandAt_sameCpu m s).y
@[simp] theorem operandAt_sp (m : Mode) (s : State) : (operandAt m s).2.sp = s.sp := (operandAt_sameCpu m s).sp
@[simp] theorem operandAt_p (m : Mode) (s : State) : (operandAt m s).2.p = s.p := (operandAt_sameCpu m s).p
@[simp] theorem operandAt_pc (m : Mode) (s : State) : (operandAt m s).2.pc = s.pc := (operandAt_sameCpu m s).pc
@[simp] theorem operandAt_cyc (m : Mode) (s : State) : (operandAt m s).2.cyc = s.cyc := (operandAt_sameCpu m s).cyc
@[simp] theorem operandAt_nmiLatch (m : Mode) (s : State) : (operandAt m s).2.nmiLatch = s.nmiLatch := (operandAt_sameCpu m s).nmiLatch
@[simp] theorem operandAt_lines (m : Mode) (s : State) : (operandAt m s).2.lines = s.lines := (operandAt_sameCpu m s).lines
@[simp] theorem operandAt_script (m : Mode) (s : State) : (operandAt m s).2.script = s.script := (operandAt_sameCpu m s).script

end Sys2Proof.Machine
end

