-- ==== Sys2Proof/Laws/Memory.lean ====
section
/-! SUPPORT. The laws of a sparse memory: what a read gives after a write, a clear or a load, that every operation keeps
the canonical form, and that memories in that form are equal when they read the same. -/

namespace Sys2Proof.Machine.Memory

theorem risingFrom_mono {lo lo' : Nat} (h : lo' ≤ lo) {m : Memory} (hm : risingFrom lo m = true) :
    risingFrom lo' m = true := by
  cases m with
  | nil => rfl
  | cons c rest =>
    obtain ⟨k, w⟩ := c
    simp only [risingFrom, Bool.and_eq_true, decide_eq_true_eq] at hm ⊢
    exact ⟨⟨Nat.le_trans h hm.1.1, hm.1.2⟩, hm.2⟩

/-- Nothing is listed below the start of a rising memory. -/
theorem read_below {lo : Nat} {m : Memory} (hm : risingFrom lo m = true) {a : Nat} (ha : a < lo) : m.read a = unlisted := by
  induction m generalizing lo with
  | nil => rfl
  | cons c rest ih =>
    obtain ⟨k, w⟩ := c
    simp only [risingFrom, Bool.and_eq_true, decide_eq_true_eq] at hm
    have hk : k ≠ a := by omega
    simp only [read, hk, if_false]
    exact ih hm.2 (by omega)

theorem read_cons {lo a b : Nat} {v : Byte} {rest : Memory} (hr : risingFrom lo rest = true) (ha : a < lo) :
    (cons a v rest).read b = if b = a then v else rest.read b := by
  unfold cons
  by_cases hv : v = unlisted
  · simp only [hv, if_true]
    by_cases hb : b = a
    · simp only [hb, if_true]; exact read_below hr ha
    · simp only [hb, if_false]
  · simp only [hv, if_false, read, eq_comm]

theorem risingFrom_cons {lo a : Nat} {v : Byte} {rest : Memory} (hr : risingFrom (a + 1) rest = true) (ha : lo ≤ a) :
    risingFrom lo (cons a v rest) = true := by
  unfold cons
  by_cases hv : v = unlisted
  · simp only [hv, if_true]; exact risingFrom_mono (by omega) hr
  · simp [hv, risingFrom, ha, hr]

/-- Read after write, over a rising memory. -/
theorem read_write {lo : Nat} {m : Memory} (hm : risingFrom lo m = true) (a b : Nat) (v : Byte) :
    (m.write a v).read b = if b = a then v else m.read b := by
  induction m generalizing lo with
  | nil => exact read_cons (lo := a + 1) rfl (by omega)
  | cons c rest ih =>
    obtain ⟨k, w⟩ := c
    have hm' := hm
    simp only [risingFrom, Bool.and_eq_true, decide_eq_true_eq] at hm'
    unfold write
    split
    · rename_i hlt
      refine read_cons (lo := k) ?_ hlt
      simp only [risingFrom, Bool.and_eq_true, decide_eq_true_eq]
      exact ⟨⟨Nat.le_refl k, hm'.1.2⟩, hm'.2⟩
    · split
      · rename_i _ heq
        rw [read_cons (lo := k + 1) hm'.2 (by omega)]
        by_cases hb : b = a
        · simp [hb]
        · have : k ≠ b := fun h => hb (by omega)
          simp [hb, read, this]
      · rename_i hlt hne
        simp only [read, ih hm'.2]
        by_cases hb : b = a
        · have : ¬ k = a := by omega
          simp [hb, this]
        · simp [hb]

theorem risingFrom_write {lo : Nat} {m : Memory} (hm : risingFrom lo m = true) {a : Nat} (ha : lo ≤ a) (v : Byte) :
    risingFrom lo (m.write a v) = true := by
  induction m generalizing lo with
  | nil => exact risingFrom_cons rfl ha
  | cons c rest ih =>
    obtain ⟨k, w⟩ := c
    have hm' := hm
    simp only [risingFrom, Bool.and_eq_true, decide_eq_true_eq] at hm'
    unfold write
    split
    · refine risingFrom_cons ?_ ha
      simp only [risingFrom, Bool.and_eq_true, decide_eq_true_eq]
      exact ⟨⟨by omega, hm'.1.2⟩, hm'.2⟩
    · split
      · rename_i _ heq
        exact risingFrom_cons (heq ▸ hm'.2) ha
      · simp only [risingFrom, Bool.and_eq_true, decide_eq_true_eq]
        exact ⟨hm'.1, ih hm'.2 (by omega)⟩

theorem mem_write {m : Memory} {a : Nat} {v : Byte} {c : Host.Cell} (h : c ∈ m.write a v) : c.1 = a ∨ c ∈ m := by
  have hc : ∀ rest : Memory, c ∈ cons a v rest → c.1 = a ∨ c ∈ rest := by
    intro rest hr
    unfold cons at hr
    split at hr
    · exact .inr hr
    · rcases List.mem_cons.1 hr with rfl | hr
      · exact .inl rfl
      · exact .inr hr
  induction m with
  | nil => exact hc [] h
  | cons d rest ih =>
    obtain ⟨k, w⟩ := d
    unfold write at h
    split at h
    · exact hc _ h
    · split at h
      · exact (hc _ h).imp_right (List.mem_cons_of_mem _)
      · rcases List.mem_cons.1 h with rfl | h
        · exact .inr List.mem_cons_self
        · exact (ih h).imp_right (List.mem_cons_of_mem _)

theorem wf_iff {size : Nat} {m : Memory} :
    m.wf size = true ↔ risingFrom 0 m = true ∧ ∀ c ∈ m, c.1 < size := by
  simp [wf]

/-- A write inside the memory keeps the canonical form. -/
theorem wf_write {size : Nat} {m : Memory} (hm : m.wf size = true) {a : Nat} (ha : a < size) (v : Byte) :
    (m.write a v).wf size = true := by
  rw [wf_iff] at hm ⊢
  refine ⟨risingFrom_write hm.1 (Nat.zero_le a) v, fun c hc => ?_⟩
  rcases mem_write hc with h | h
  · omega
  · exact hm.2 c h

/-- Read after write, over a memory in canonical form. -/
theorem read_write_wf {size : Nat} {m : Memory} (hm : m.wf size = true) (a b : Nat) (v : Byte) :
    (m.write a v).read b = if b = a then v else m.read b := read_write (wf_iff.1 hm).1 a b v

theorem read_clearBelow (m : Memory) (bound a : Nat) :
    (m.clearBelow bound).read a = if a < bound then unlisted else m.read a := by
  induction m with
  | nil => simp [clearBelow, read, unlisted]
  | cons c rest ih =>
    obtain ⟨k, w⟩ := c
    simp only [clearBelow, List.filter_cons] at ih ⊢
    by_cases hk : bound ≤ k
    · simp only [hk, decide_true, if_true, read, ih]
      by_cases ha : a < bound
      · have : k ≠ a := by omega
        simp [this, ha]
      · simp [ha]
    · simp only [hk, decide_false, Bool.false_eq_true, if_false, ih, read]
      by_cases ha : a < bound
      · simp [ha]
      · have : k ≠ a := by omega
        simp [this, ha]

theorem risingFrom_clearBelow {lo : Nat} {m : Memory} (hm : risingFrom lo m = true) (bound : Nat) :
    risingFrom lo (m.clearBelow bound) = true := by
  induction m generalizing lo with
  | nil => rfl
  | cons c rest ih =>
    obtain ⟨k, w⟩ := c
    simp only [risingFrom, Bool.and_eq_true, decide_eq_true_eq] at hm
    simp only [clearBelow, List.filter_cons] at ih ⊢
    split
    · simp only [risingFrom, Bool.and_eq_true, decide_eq_true_eq]
      exact ⟨hm.1, ih hm.2⟩
    · exact risingFrom_mono (by omega) (ih hm.2)

/-- Clearing keeps the canonical form. -/
theorem wf_clearBelow {size : Nat} {m : Memory} (hm : m.wf size = true) (bound : Nat) :
    (m.clearBelow bound).wf size = true := by
  rw [wf_iff] at hm ⊢
  exact ⟨risingFrom_clearBelow hm.1 bound, fun c hc => hm.2 c (List.mem_filter.1 hc).1⟩

theorem wf_load {size : Nat} {m : Memory} (hm : m.wf size = true) {a : Nat} {l : List Byte} (h : a + l.length ≤ size) :
    (m.load a l).wf size = true := by
  induction l generalizing m a with
  | nil => exact hm
  | cons v vs ih =>
    simp only [List.length_cons] at h
    exact ih (wf_write hm (by omega) v) (by omega)

/-- What a loaded image reads as: the image inside its range, the old bytes outside. -/
theorem read_load {m : Memory} (hm : risingFrom 0 m = true) (a b : Nat) (l : List Byte) :
    (m.load a l).read b = if a ≤ b ∧ b < a + l.length then l.getD (b - a) 0 else m.read b := by
  induction l generalizing m a with
  | nil =>
    simp [load]
  | cons v vs ih =>
    simp only [load, List.length_cons]
    rw [ih (risingFrom_write hm (Nat.zero_le a) v), read_write hm]
    rcases Nat.lt_trichotomy b a with hb | hb | hb
    · have h1 : ¬ (a + 1 ≤ b ∧ b < a + 1 + vs.length) := by omega
      have h2 : ¬ (a ≤ b ∧ b < a + (vs.length + 1)) := by omega
      have h3 : b ≠ a := by omega
      simp only [h1, h2, h3, if_false]
    · subst hb
      simp
    · have h3 : b ≠ a := by omega
      have h4 : b - a = (b - (a + 1)) + 1 := by omega
      by_cases h1 : a + 1 ≤ b ∧ b < a + 1 + vs.length
      · have h2 : a ≤ b ∧ b < a + (vs.length + 1) := by omega
        simp only [h1, h2, and_self, if_true, h4, List.getD_cons_succ]
      · have h2 : ¬ (a ≤ b ∧ b < a + (vs.length + 1)) := by omega
        simp only [h1, h2, h3, if_false]

/-- Memories in canonical form that read the same are equal data. -/
theorem eq_of_read {lo : Nat} {m n : Memory} (hm : risingFrom lo m = true) (hn : risingFrom lo n = true)
    (h : ∀ a, m.read a = n.read a) : m = n := by
  induction m generalizing lo n with
  | nil =>
    cases n with
    | nil => rfl
    | cons c rest =>
      obtain ⟨k, w⟩ := c
      simp only [risingFrom, Bool.and_eq_true, bne_iff_ne] at hn
      exact absurd (h k) (by simpa [read] using Ne.symm hn.1.2)
  | cons c rest ih =>
    obtain ⟨k, w⟩ := c
    cases n with
    | nil =>
      simp only [risingFrom, Bool.and_eq_true, bne_iff_ne] at hm
      exact absurd (h k) (by simpa [read] using hm.1.2)
    | cons d rest' =>
      obtain ⟨j, u⟩ := d
      simp only [risingFrom, Bool.and_eq_true, bne_iff_ne, decide_eq_true_eq] at hm hn
      have hkj : k = j := by
        rcases Nat.lt_trichotomy k j with hlt | heq | hgt
        · have := h k
          have hne : ¬ j = k := by omega
          simp only [read, if_true, hne, if_false, read_below hn.2 (by omega : k < j + 1)] at this
          exact absurd this hm.1.2
        · exact heq
        · have := h j
          have hne : ¬ k = j := by omega
          simp only [read, if_true, hne, if_false, read_below hm.2 (by omega : j < k + 1)] at this
          exact absurd this.symm hn.1.2
      subst hkj
      have hw : w = u := by simpa [read] using h k
      subst hw
      congr 1
      refine ih hm.2 hn.2 (fun a => ?_)
      by_cases ha : k = a
      · subst ha
        rw [read_below hm.2 (by omega), read_below hn.2 (by omega)]
      · simpa [read, ha] using h a

end Sys2Proof.Machine.Memory
end

