-- ==== Sys2Proof/Laws/Bus.lean ====
section
/-! SUPPORT. The Bus with no transfer in flight: the DMA agent has no turn, an access to Bus memory reads or writes one byte, a
CPU read leaves both memories and the storage controller alone; and what R7 says about the windows, as arithmetic. -/

namespace Sys2Proof.Machine

/-! ### Addresses -/

theorem mk16_toNat (hi lo : Byte) : (mk16 hi lo).toNat = hi.toNat * 256 + lo.toNat := by
  have := lo.isLt
  simp only [mk16, BitVec.toNat_append, Nat.shiftLeft_eq]
  rw [← Nat.shiftLeft_eq, ← Nat.shiftLeft_add_eq_or_of_lt (by omega), Nat.shiftLeft_eq]

theorem hi8_toNat (a : Addr) : (hi8 a).toNat = a.toNat / 256 := by
  have := a.isLt
  simp only [hi8, BitVec.extractLsb'_toNat, Nat.shiftRight_eq_div_pow]
  omega

theorem lo8_toNat (a : Addr) : (lo8 a).toNat = a.toNat % 256 := by
  simp only [lo8, BitVec.extractLsb'_toNat, Nat.shiftRight_zero]

theorem zext16_toNat (b : Byte) : (zext16 b).toNat = b.toNat := by
  have := b.isLt
  simp only [zext16, BitVec.toNat_setWidth]
  omega

@[simp] theorem mk16_hi8_lo8 (a : Addr) : mk16 (hi8 a) (lo8 a) = a := by
  apply BitVec.eq_of_toNat_eq
  rw [mk16_toNat, hi8_toNat, lo8_toNat]
  omega

@[simp] theorem hi8_mk16 (h l : Byte) : hi8 (mk16 h l) = h := by
  apply BitVec.eq_of_toNat_eq
  have := l.isLt
  rw [hi8_toNat, mk16_toNat]
  omega

@[simp] theorem lo8_mk16 (h l : Byte) : lo8 (mk16 h l) = l := by
  apply BitVec.eq_of_toNat_eq
  have := l.isLt
  rw [lo8_toNat, mk16_toNat]
  omega

theorem mk16_inj {h l h' l' : Byte} : mk16 h l = mk16 h' l' ↔ h = h' ∧ l = l' := by
  constructor
  · intro e
    exact ⟨by simpa using congrArg hi8 e, by simpa using congrArg lo8 e⟩
  · rintro ⟨rfl, rfl⟩; rfl

/-! ### The windows -/

/-- The constraints of R7 on one window, as inequalities. -/
theorem windowOk_bounds {c : Config} {b : Addr} (h : windowOk c b = true) :
    b.toNat % 16 = 0 ∧ 0x200 ≤ b.toNat ∧ b.toNat + 15 < 0xFFFA ∧ b.toNat / 256 ≠ c.stackPage.toNat ∧
      b.toNat + 15 < c.romBase.toNat := by
  simpa [windowOk, and_assoc] using h

theorem configOk_window {c : Config} (h : configOk c = true) (k : ViaId) : windowOk c (viaBase c k) = true := by
  simp only [configOk, Bool.and_eq_true] at h
  cases k
  · exact h.1.1.1.1.1.1.1.1
  · exact h.1.1.1.1.1.1.1.2
  · exact h.1.1.1.1.1.1.2

theorem windowsDisjoint_iff {a b : Addr} :
    windowsDisjoint a b = true ↔ a.toNat + 15 < b.toNat ∨ b.toNat + 15 < a.toNat := by
  simp [windowsDisjoint]

theorem configOk_disjoint {c : Config} (h : configOk c = true) {j k : ViaId} (hjk : j ≠ k) :
    (viaBase c j).toNat + 15 < (viaBase c k).toNat ∨ (viaBase c k).toNat + 15 < (viaBase c j).toNat := by
  simp only [configOk, Bool.and_eq_true, windowsDisjoint_iff] at h
  have h12 := h.1.1.1.1.1.2
  have h13 := h.1.1.1.1.2
  have h23 := h.1.1.1.2
  cases j <;> cases k <;> first
    | exact absurd rfl hjk
    | exact h12
    | exact h13
    | exact h23
    | exact h12.symm
    | exact h13.symm
    | exact h23.symm

/-- A vector pair lies from ROM_BASE up and does not wrap. -/
theorem configOk_vector {c : Config} (h : configOk c = true) {v : Addr} (hv : v = c.vecNmi ∨ v = c.vecReset ∨ v = c.vecIrq) :
    c.romBase.toNat ≤ v.toNat ∧ v.toNat + 1 < 65536 := by
  simp only [configOk, Bool.and_eq_true, vectorOk, decide_eq_true_eq] at h
  rcases hv with rfl | rfl | rfl
  · exact h.1.1.2
  · exact h.1.2
  · exact h.2

theorem inWindow_iff {c : Config} {k : ViaId} {a : Addr} :
    inWindow c k a = true ↔ (viaBase c k).toNat ≤ a.toNat ∧ a.toNat ≤ (viaBase c k).toNat + 15 := by
  simp [inWindow]

/-- An address outside every window leads to Bus memory. -/
theorem decodeAddr_plain {c : Config} {a : Addr} (h : ∀ k, inWindow c k a = false) : decodeAddr c a = .plain := by
  simp [decodeAddr, h]

/-- Below the windows' lower limit and above their upper one every address is plain. -/
theorem decodeAddr_plain_of_page {c : Config} (hc : configOk c = true) {a : Addr}
    (h : a.toNat < 0x200 ∨ c.romBase.toNat ≤ a.toNat ∨ a.toNat / 256 = c.stackPage.toNat) : decodeAddr c a = .plain := by
  refine decodeAddr_plain fun k => ?_
  have hw := windowOk_bounds (configOk_window hc k)
  rw [Bool.eq_false_iff]
  intro hin
  rw [inWindow_iff] at hin
  omega

/-! ### Accesses with no transfer in flight -/

theorem dmaTurn_idle {s : State} (h : s.sc.busy = false) : dmaTurn s = s := by simp [dmaTurn, h]

theorem memRead_idle {s : State} (h : s.sc.busy = false) (a : Addr) : memRead a s = busRead a s := by
  simp [memRead, dmaTurn_idle h]

theorem memWrite_idle {s : State} (h : s.sc.busy = false) (a : Addr) (v : Byte) : memWrite a v s = busWrite a v s := by
  simp [memWrite, dmaTurn_idle h]

theorem memRead_plain {s : State} (h : s.sc.busy = false) {a : Addr} (ha : decodeAddr s.cfg a = .plain) :
    memRead a s = (ramRead a s, s) := by
  simp [memRead_idle h, busRead, ha]

theorem memWrite_plain {s : State} (h : s.sc.busy = false) {a : Addr} (ha : decodeAddr s.cfg a = .plain) (v : Byte) :
    memWrite a v s = ramWrite a v s := by
  simp [memWrite_idle h, busWrite, ha]

/-- What a read keeps: both memories and the storage controller. -/
structure SameStorage (s t : State) : Prop where
  mem : t.mem = s.mem
  store : t.store = s.store
  sc : t.sc = s.sc

theorem SameStorage.refl (s : State) : SameStorage s s := ⟨rfl, rfl, rfl⟩

theorem SameStorage.trans {s t u : State} (h : SameStorage s t) (k : SameStorage t u) : SameStorage s u :=
  ⟨k.mem.trans h.mem, k.store.trans h.store, k.sc.trans h.sc⟩

theorem viaRead_sameStorage (c : ViaId) (o : BitVec 4) (s : State) : SameStorage s (viaRead c o s).2 := by
  simp only [viaRead]
  split
  · exact ⟨State.setVia_mem .., State.setVia_store .., State.setVia_sc ..⟩
  all_goals exact ⟨rfl, rfl, rfl⟩

theorem busRead_sameStorage (a : Addr) (s : State) : SameStorage s (busRead a s).2 := by
  simp only [busRead]
  split
  · exact viaRead_sameStorage _ _ s
  · exact SameStorage.refl s

theorem memRead_sameStorage {s : State} (h : s.sc.busy = false) (a : Addr) : SameStorage s (memRead a s).2 := by
  rw [memRead_idle h]
  exact busRead_sameStorage a s

theorem read16_sameStorage {s : State} (h : s.sc.busy = false) (a : Addr) : SameStorage s (read16 a s).2 := by
  have h1 := memRead_sameStorage h a
  exact h1.trans (memRead_sameStorage (by rw [h1.sc]; exact h) (a + 1))

theorem read16zp_sameStorage {s : State} (h : s.sc.busy = false) (z : Byte) : SameStorage s (read16zp z s).2 := by
  have h1 := memRead_sameStorage h (zext16 z)
  exact h1.trans (memRead_sameStorage (by rw [h1.sc]; exact h) (zext16 (z + 1)))

theorem effAddr_sameStorage {s : State} (h : s.sc.busy = false) (m : Mode) : SameStorage s (effAddr m s).st := by
  cases m with
  | zpi z => exact read16zp_sameStorage h z
  | izx z => exact read16zp_sameStorage h (z + s.x)
  | izy z => exact read16zp_sameStorage h z
  | ind a => exact read16_sameStorage h a
  | iax a => exact read16_sameStorage h (a + zext16 s.x)
  | _ => exact SameStorage.refl s

/-! ### Bytes of Bus memory -/

theorem addr_toNat_inj {a b : Addr} : a.toNat = b.toNat ↔ a = b := ⟨BitVec.eq_of_toNat_eq, fun h => h ▸ rfl⟩

/-- Read after write, in Bus memory. -/
theorem ramRead_ramWrite {s : State} (h : s.mem.wf 65536 = true) (a b : Addr) (v : Byte) :
    ramRead b (ramWrite a v s) = if b = a then v else ramRead b s := by
  simp only [ramRead, ramWrite, State.setMem_mem, Memory.read_write_wf h, addr_toNat_inj]

theorem ramWrite_wf {s : State} (h : s.mem.wf 65536 = true) (a : Addr) (v : Byte) :
    (ramWrite a v s).mem.wf 65536 = true := Memory.wf_write h a.isLt v

end Sys2Proof.Machine
end

