-- ==== Sys2Proof/Laws/Flags.lean ====
section
/-! SUPPORT. The laws of the status byte: reading a flag after writing one, what SetNZ and the flag computations write, and
that the eight flags determine the byte. -/

namespace Sys2Proof.Machine

theorem Flag.bit_lt (f : Flag) : f.bit < 8 := by cases f <;> decide

theorem Flag.bit_inj {f g : Flag} (h : f.bit = g.bit) : f = g := by
  cases f <;> cases g <;> first | rfl | exact absurd h (by decide)

/-- Reading a flag after writing one. -/
theorem getFlag_setFlag (p : Byte) (f g : Flag) (v : Bool) :
    getFlag (setFlag p f v) g = if g = f then v else getFlag p g := by
  have hg := g.bit_lt
  by_cases h : g = f
  · subst h
    cases v <;> simp [getFlag, setFlag, flagMask, hg]
  · have hb : ¬ g.bit = f.bit := fun e => h (Flag.bit_inj e)
    have hd : g.bit - f.bit ≠ 0 ∨ g.bit < f.bit := by omega
    cases v <;> simp only [getFlag, setFlag, flagMask, h, if_false, if_true, Bool.false_eq_true] <;>
      rcases hd with hd | hd <;> simp [hg, hd]

@[simp] theorem getFlag_setFlag_same (p : Byte) (f : Flag) (v : Bool) : getFlag (setFlag p f v) f = v := by
  rw [getFlag_setFlag, if_pos rfl]

theorem getFlag_setFlag_ne {f g : Flag} (h : g ≠ f) (p : Byte) (v : Bool) : getFlag (setFlag p f v) g = getFlag p g := by
  rw [getFlag_setFlag, if_neg h]

/-- The eight flags determine the status byte. -/
theorem eq_of_getFlag {p q : Byte} (h : ∀ f, getFlag p f = getFlag q f) : p = q := by
  apply BitVec.eq_of_getLsbD_eq
  intro i hi
  have : i = 0 ∨ i = 1 ∨ i = 2 ∨ i = 3 ∨ i = 4 ∨ i = 5 ∨ i = 6 ∨ i = 7 := by omega
  rcases this with rfl | rfl | rfl | rfl | rfl | rfl | rfl | rfl
  · exact h .c
  · exact h .z
  · exact h .i
  · exact h .d
  · exact h .b
  · exact h .u
  · exact h .v
  · exact h .n

theorem getFlag_setNZ (p v : Byte) (f : Flag) :
    getFlag (setNZ p v) f = if f = .z then decide (v = 0) else if f = .n then v.getLsbD 7 else getFlag p f := by
  rw [setNZ, getFlag_setFlag, getFlag_setFlag]
  rfl

/-- SetNZ as a statement about flags (R14). -/
theorem flagsBecome_setNZ (p v : Byte) : flagsBecome p (setNZ p v) (nzOf v) := by
  refine ⟨fun f b h => ?_, fun f h => ?_⟩
  · simp only [nzOf, List.mem_cons, List.not_mem_nil, or_false, Prod.mk.injEq] at h
    rcases h with ⟨rfl, rfl⟩ | ⟨rfl, rfl⟩ <;> simp [getFlag_setNZ]
  · simp only [nzOf, List.map_cons, List.map_nil, List.mem_cons, List.not_mem_nil, or_false, not_or] at h
    simp [getFlag_setNZ, h.1, h.2]

/-- One flag written. -/
theorem flagsBecome_setFlag (p : Byte) (f : Flag) (v : Bool) : flagsBecome p (setFlag p f v) [(f, v)] := by
  refine ⟨fun g b h => ?_, fun g h => ?_⟩
  · simp only [List.mem_cons, List.not_mem_nil, or_false, Prod.mk.injEq] at h
    rcases h with ⟨rfl, rfl⟩
    simp
  · simp only [List.map_cons, List.map_nil, List.mem_cons, List.not_mem_nil, or_false] at h
    exact getFlag_setFlag_ne h p v

/-- One more flag written after others. -/
theorem flagsBecome_cons {p q : Byte} {l : List (Flag × Bool)} (h : flagsBecome p q l) (f : Flag) (v : Bool)
    (hf : f ∉ l.map Prod.fst) : flagsBecome p (setFlag q f v) ((f, v) :: l) := by
  refine ⟨fun g b hm => ?_, fun g hm => ?_⟩
  · rcases List.mem_cons.1 hm with he | hm
    · simp only [Prod.mk.injEq] at he
      rcases he with ⟨rfl, rfl⟩
      simp
    · have hg : g ≠ f := fun e => hf (e ▸ List.mem_map_of_mem (f := Prod.fst) hm)
      rw [getFlag_setFlag_ne hg]
      exact h.1 g b hm
  · simp only [List.map_cons, List.mem_cons, not_or] at hm
    rw [getFlag_setFlag_ne hm.1]
    exact h.2 g hm.2

/-- Whether a flag statement holds depends on the listed pairs alone, not on their order. -/
theorem flagsBecome_congr {p q : Byte} {l l' : List (Flag × Bool)} (h : flagsBecome p q l) (hl : ∀ c, c ∈ l' ↔ c ∈ l) :
    flagsBecome p q l' := by
  refine ⟨fun f b hm => h.1 f b ((hl _).1 hm), fun f hm => h.2 f (fun hf => hm ?_)⟩
  obtain ⟨c, hc, he⟩ := List.mem_map.1 hf
  exact he ▸ List.mem_map_of_mem ((hl c).2 hc)

theorem flagsBecome_compareFlags (p r m : Byte) :
    flagsBecome p (compareFlags p r m)
      [(.n, (r - m).getLsbD 7), (.z, decide (r = m)), (.c, decide (m.toNat ≤ r.toNat))] := by
  refine flagsBecome_cons (flagsBecome_cons (flagsBecome_setFlag p .c _) .z (r == m) ?_) .n _ ?_ <;> simp

theorem flagsBecome_aluFlags (p : Byte) (o : AluOut) :
    flagsBecome p (aluFlags p o) [(.z, decide (o.res = 0)), (.n, o.res.getLsbD 7), (.c, o.carry), (.v, o.overflow)] := by
  refine flagsBecome_cons (flagsBecome_cons (flagsBecome_cons (flagsBecome_setFlag p .v _) .c _ ?_) .n _ ?_) .z _ ?_ <;> simp

theorem flagsBecome_shiftFlags (p : Byte) (o : ShiftOut) :
    flagsBecome p (shiftFlags p o) [(.z, decide (o.res = 0)), (.n, o.res.getLsbD 7), (.c, o.carry)] := by
  refine flagsBecome_cons (flagsBecome_cons (flagsBecome_setFlag p .c _) .n _ ?_) .z _ ?_ <;> simp

theorem flagsBecome_bitFlags (p a m : Byte) :
    flagsBecome p (bitFlags p a m) [(.v, m.getLsbD 6), (.n, m.getLsbD 7), (.z, decide (a &&& m = 0))] := by
  refine flagsBecome_cons (flagsBecome_cons (flagsBecome_setFlag p .z _) .n _ ?_) .v _ ?_ <;> simp

end Sys2Proof.Machine
end

