-- ==== Sys2Proof/Laws/Operands.lean ====
section
/-! SUPPORT. The laws of the addressing modes and of the read-modify-write shape, one per shared operation. -/

namespace Sys2Proof.Machine

theorem decodeAddr_zeroPage {c : Config} (hc : configOk c = true) (z : Byte) : decodeAddr c (zext16 z) = .plain := by
  refine decodeAddr_plain_of_page hc (.inl ?_)
  have := z.isLt
  rw [zext16_toNat]
  omega

theorem decodeAddr_stackPage {c : Config} (hc : configOk c = true) (o : Byte) :
    decodeAddr c (mk16 c.stackPage o) = .plain := by
  refine decodeAddr_plain_of_page hc (.inr (.inr ?_))
  have := o.isLt
  rw [mk16_toNat]
  omega

/-- A zero-page pointer with no transfer in flight: two bytes of page zero, and nothing changes. -/
theorem read16zp_quiet {s : State} (h : s.quiet) (z : Byte) : read16zp z s = (zpWord z s, s) := by
  simp [read16zp, memRead_plain h.2 (decodeAddr_zeroPage h.1 _), zpWord]

/-- A pointer in Bus memory with no transfer in flight. -/
theorem read16_quiet {s : State} (h : s.quiet) {a : Addr} (h0 : plainAddr s a) (h1 : plainAddr s (a + 1)) :
    read16 a s = (ramWord a s, s) := by
  simp only [read16, memRead_plain h.2 h0, memRead_plain h.2 h1, ramWord]

/-- Computing the address of a data mode changes nothing while no transfer is in flight: its pointers lie in page zero. -/
theorem effAddr_st_quiet {s : State} (h : s.quiet) {m : Mode} (h1 : m.form ≠ .ind) (h2 : m.form ≠ .iax) :
    (effAddr m s).st = s := by
  cases m with
  | ind a => exact absurd rfl h1
  | iax a => exact absurd rfl h2
  | zpi z => simp only [effAddr, read16zp_quiet h]
  | izx z => simp only [effAddr, read16zp_quiet h]
  | izy z => simp only [effAddr, read16zp_quiet h]
  | _ => rfl

/-- Reading an operand with no transfer in flight keeps both memories and the storage controller. -/
theorem operandAt_sameStorage {s : State} (h : s.sc.busy = false) (m : Mode) : SameStorage s (operandAt m s).2 := by
  cases m with
  | acc => exact SameStorage.refl s
  | imm v => exact SameStorage.refl s
  | _ =>
    have he := effAddr_sameStorage h
    exact (he _).trans (memRead_sameStorage (by rw [(he _).sc]; exact h) _)

/-- Pages as numbers. -/
theorem hi8_bne (a b : Addr) : (hi8 a != hi8 b) = decide (a.toNat / 256 ≠ b.toNat / 256) := by
  by_cases h : hi8 a = hi8 b
  · have := congrArg BitVec.toNat h
    rw [hi8_toNat, hi8_toNat] at this
    simp [h, this]
  · have : a.toNat / 256 ≠ b.toNat / 256 := fun e => h (BitVec.eq_of_toNat_eq (by rw [hi8_toNat, hi8_toNat, e]))
    simp [h, this]

/-- The memory form of a read-modify-write: one read, then one write of the result at the same address. -/
theorem modifyOperand_memory {m : Mode} (h : m ≠ .acc) (f : Byte → Byte × Byte) (cost : Bool → Nat) (s : State) :
    modifyOperand m f cost s =
      (let r := memRead (effAddr m s).addr (effAddr m s).st
       { memWrite (effAddr m s).addr (f r.1).1 { r.2 with p := (f r.1).2 } with
          cyc := s.cyc + cost (effAddr m s).crossed }) := by
  cases m <;> first
    | exact absurd rfl h
    | simp only [modifyOperand, State.charge, State.setP, memWrite_cyc, memRead_cyc, effAddr_cyc]

/-- The bytes of Bus memory after the write of a read-modify-write whose address is plain. -/
theorem ramRead_modify {s : State} {m : Mode} (h1 : m.form ≠ .ind) (h2 : m.form ≠ .iax) (v p' : Byte) (hq : s.quiet)
    (hp : plainAddr s (effAddr m s).addr) (hm : s.mem.wf 65536 = true) (b : Addr) :
    ramRead b (memWrite (effAddr m s).addr v { (memRead (effAddr m s).addr (effAddr m s).st).2 with p := p' }) =
      if b = (effAddr m s).addr then v else ramRead b s := by
  rw [effAddr_st_quiet hq h1 h2, memRead_plain hq.2 hp, memWrite_plain (s := { s with p := p' }) hq.2 hp]
  exact ramRead_ramWrite (s := { s with p := p' }) hm _ _ _

end Sys2Proof.Machine
end

