-- ==== Sys2Proof/Laws/Ops.lean ====
section
/-! SUPPORT. The stack operations, taking an exception and returning from one, with no transfer in flight. -/

namespace Sys2Proof.Machine

theorem setSp_quiet {s : State} (h : s.quiet) (v : Byte) : (s.setSp v).quiet := h

/-- A push with no transfer in flight: one byte of Bus memory and SP. -/
theorem push_quiet {s : State} (h : s.quiet) (v : Byte) : push v s = (ramWrite (stackAddr s) v s).setSp (s.sp - 1) := by
  simp only [push, memWrite_plain h.2 (show plainAddr s (stackAddr s) from decodeAddr_stackPage h.1 _)]
  rfl

/-- A pull with no transfer in flight: SP alone. -/
theorem pull_quiet {s : State} (h : s.quiet) :
    pull s = (ramRead (mk16 s.cfg.stackPage (s.sp + 1)) s, s.setSp (s.sp + 1)) := by
  simp only [pull, stackAddr]
  exact memRead_plain (s := s.setSp (s.sp + 1)) h.2 (decodeAddr_stackPage h.1 _)

/-- Two bytes pushed, the high one first. -/
theorem push16_quiet {s : State} (h : s.quiet) (a : Addr) :
    push16 a s =
      (s.setMem ((s.mem.write (stackAddr s).toNat (hi8 a)).write (mk16 s.cfg.stackPage (s.sp - 1)).toNat (lo8 a))).setSp
        (s.sp - 2) := by
  have e : s.sp - 1 - 1 = s.sp - 2 := by bv_omega
  rw [push16, push_quiet h, push_quiet (s := (ramWrite (stackAddr s) (hi8 a) s).setSp (s.sp - 1)) h]
  show (State.setSp _ (s.sp - 1 - 1)) = _
  rw [e]
  rfl

/-- Two bytes pulled, the low one first. -/
theorem pull16_quiet {s : State} (h : s.quiet) :
    pull16 s =
      (mk16 (ramRead (mk16 s.cfg.stackPage (s.sp + 2)) s) (ramRead (mk16 s.cfg.stackPage (s.sp + 1)) s), s.setSp (s.sp + 2)) := by
  have e : s.sp + 1 + 1 = s.sp + 2 := by bv_omega
  simp only [pull16, pull_quiet h, pull_quiet (s := s.setSp (s.sp + 1)) h, State.setSp_sp]
  show (mk16 (ramRead (mk16 s.cfg.stackPage (s.sp + 1 + 1)) s) _, s.setSp (s.sp + 1 + 1)) = _
  rw [e]

/-- Bus memory after the three pushes of an entry. -/
def entryMem (ret : Addr) (status : Byte) (s : State) : Memory :=
  ((s.mem.write (stackAddr s).toNat (hi8 ret)).write (mk16 s.cfg.stackPage (s.sp - 1)).toNat (lo8 ret)).write
    (mk16 s.cfg.stackPage (s.sp - 2)).toNat status

/-- Two stack places whose stack pointers differ are different addresses. -/
theorem stack_ne {page i j : Byte} (h : i ≠ j) : mk16 page i ≠ mk16 page j := fun e => h (mk16_inj.1 e).2

/-- What the three stack places and every other byte hold after the pushes of an entry. -/
theorem read_entryMem {s : State} (h : s.mem.wf 65536 = true) (ret : Addr) (status : Byte) (b : Addr) :
    (entryMem ret status s).read b.toNat =
      if b = stackAddr s then hi8 ret
      else if b = mk16 s.cfg.stackPage (s.sp - 1) then lo8 ret
      else if b = mk16 s.cfg.stackPage (s.sp - 2) then status else ramRead b s := by
  have h1 := Memory.wf_write h (stackAddr s).isLt (hi8 ret)
  have h2 := Memory.wf_write h1 (mk16 s.cfg.stackPage (s.sp - 1)).isLt (lo8 ret)
  rw [entryMem, Memory.read_write_wf h2, Memory.read_write_wf h1, Memory.read_write_wf h]
  simp only [addr_toNat_inj, stackAddr]
  have n1 : mk16 s.cfg.stackPage s.sp ≠ mk16 s.cfg.stackPage (s.sp - 1) := stack_ne (by bv_omega)
  have n2 : mk16 s.cfg.stackPage s.sp ≠ mk16 s.cfg.stackPage (s.sp - 2) := stack_ne (by bv_omega)
  have n3 : mk16 s.cfg.stackPage (s.sp - 1) ≠ mk16 s.cfg.stackPage (s.sp - 2) := stack_ne (by bv_omega)
  split
  · next hb => rw [if_neg (hb ▸ n2.symm), if_neg (hb ▸ n3.symm)]
  · split
    · next hb => rw [if_neg (hb ▸ n1.symm)]
    · next hb => rfl

/-- Bus memory keeps its canonical form through the pushes of an entry. -/
theorem wf_entryMem {s : State} (h : s.mem.wf 65536 = true) (ret : Addr) (status : Byte) :
    (entryMem ret status s).wf 65536 = true :=
  Memory.wf_write (Memory.wf_write (Memory.wf_write h (stackAddr s).isLt _) (mk16 s.cfg.stackPage (s.sp - 1)).isLt _)
    (mk16 s.cfg.stackPage (s.sp - 2)).isLt _

/-- Taking an exception with no transfer in flight. -/
theorem takeException_quiet {s : State} (h : s.quiet) (ret : Addr) (status : Byte) {vec : Addr}
    (h0 : plainAddr s vec) (h1 : plainAddr s (vec + 1)) :
    takeException ret status vec s =
      { s with
        mem := entryMem ret status s, sp := s.sp - 3, p := entryFlags s.cfg s.p,
        pc := mk16 ((entryMem ret status s).read (vec + 1).toNat) ((entryMem ret status s).read vec.toNat),
        cyc := s.cyc + 7 } := by
  have e : s.sp - 2 - 1 = s.sp - 3 := by bv_omega
  have hp : push status (push16 ret s) = (s.setMem (entryMem ret status s)).setSp (s.sp - 3) := by
    rw [push16_quiet h, push_quiet, ← e]
    · rfl
    · exact h
  rw [takeException]
  simp only [hp]
  rw [read16_quiet (s := ((s.setMem (entryMem ret status s)).setSp (s.sp - 3)).setP _) h h0 h1]
  rfl

/-- Returning from an exception with no transfer in flight. -/
theorem returnFromException_quiet {s : State} (h : s.quiet) :
    returnFromException s =
      { s with
        p := ramRead (mk16 s.cfg.stackPage (s.sp + 1)) s &&& 0xCF, sp := s.sp + 3, cyc := s.cyc + 6,
        pc := mk16 (ramRead (mk16 s.cfg.stackPage (s.sp + 3)) s) (ramRead (mk16 s.cfg.stackPage (s.sp + 2)) s) } := by
  have e2 : s.sp + 1 + 1 = s.sp + 2 := by bv_omega
  have e3 : s.sp + 1 + 2 = s.sp + 3 := by bv_omega
  rw [returnFromException]
  simp only [pull_quiet h]
  rw [pull16_quiet (s := (s.setSp (s.sp + 1)).setP _) h]
  show State.charge (State.setPc (State.setSp _ (s.sp + 1 + 2)) (mk16 (ramRead (mk16 s.cfg.stackPage (s.sp + 1 + 2)) s)
    (ramRead (mk16 s.cfg.stackPage (s.sp + 1 + 1)) s))) 6 = _
  rw [e2, e3]
  rfl

/-- P after an entry: I set, and D clear if INT_CLEARS_D. -/
theorem flagsBecome_entryFlags (cfg : Config) (p : Byte) :
    flagsBecome p (entryFlags cfg p) ([(.i, true)] ++ if cfg.intClearsD = true then [(.d, false)] else []) := by
  rw [entryFlags]
  split
  · next h => exact flagsBecome_congr (flagsBecome_cons (flagsBecome_setFlag p .i true) .d false (by decide)) (by simp [or_comm])
  · next h => simpa [h] using flagsBecome_setFlag p .i true

/-! ### Several steps -/

@[simp] theorem thenStep_next (s : State) : thenStep (.next s) = step s := rfl

@[simp] theorem run_zero (o : Result) : run 0 o = o := rfl

theorem run_succ (n : Nat) (o : Result) : run (n + 1) o = run n (thenStep o) := by rw [run]

/-- A run whose first step answers a next state. -/
theorem run_step {s t : State} (h : step s = .next t) (n : Nat) : run (n + 1) (.next s) = run n (.next t) := by
  rw [run_succ, thenStep_next, h]

end Sys2Proof.Machine
end

