-- ==== Sys2Proof/Laws/Via.lean ====
section
/-! SUPPORT. The laws of one VIA: bits of its seven-bit registers after a change, the bytes that reads of the flags and enable
registers give, when control line 1 latches, and the registers behind the offsets. -/

namespace Sys2Proof.Machine

/-- Bits of a register after one is cleared. -/
theorem getLsbD_clearBit7 (r : BitVec 7) (c k : Nat) (hk : k < 7) :
    (clearBit7 r c).getLsbD k = (r.getLsbD k && decide (k ≠ c)) := by
  simp only [clearBit7, BitVec.getLsbD_and, BitVec.getLsbD_not, hk, decide_true, Bool.true_and, BitVec.getLsbD_shiftLeft,
    BitVec.getLsbD_one]
  by_cases h : k = c
  · simp [h]
  · by_cases h2 : k < c <;> simp [h, h2]; omega

/-- Bits of a register after one is set. -/
theorem getLsbD_setBit7 (r : BitVec 7) (c k : Nat) (hk : k < 7) :
    (setBit7 r c).getLsbD k = (r.getLsbD k || decide (k = c)) := by
  simp only [setBit7, BitVec.getLsbD_or, hk, decide_true, Bool.true_and, BitVec.getLsbD_shiftLeft, BitVec.getLsbD_one]
  by_cases h : k = c
  · simp [h]
  · by_cases h2 : k < c <;> simp [h, h2]; omega

/-- Bits of a seven-bit register under a top bit. -/
theorem getLsbD_under (t : BitVec 1) (r : BitVec 7) (k : Nat) :
    BitVec.getLsbD (t ++ r : BitVec (1 + 7)) k = if k < 7 then r.getLsbD k else t.getLsbD (k - 7) :=
  BitVec.getLsbD_append

/-- Bits 6 to 0 of the flags register's byte are the cause bits, bit 7 the composite bit. -/
theorem getLsbD_ifrByte (v : Via) (k : Nat) (hk : k < 8) :
    v.ifrByte.getLsbD k = if k < 7 then v.ifr.getLsbD k else v.composite := by
  refine (getLsbD_under _ _ k).trans ?_
  split
  · rfl
  · have : k - 7 = 0 := by omega
    simp [this]

/-- Bits 6 to 0 of the enable register's byte are the enable bits, bit 7 is 1. -/
theorem getLsbD_ierByte (v : Via) (k : Nat) (hk : k < 8) :
    v.ierByte.getLsbD k = if k < 7 then v.ier.getLsbD k else true := by
  refine (getLsbD_under _ _ k).trans ?_
  split
  · rfl
  · have : k - 7 = 0 := by omega
    simp [this]

@[simp] theorem viaReg_portOffset (p : Port) : viaReg (portOffset p) = .port p := by cases p <;> rfl

@[simp] theorem companionOf_companionVia (k : Companion) : companionOf (companionVia k) = some k := by cases k <;> rfl

/-- When an assertion latches: the enable bit set and the produced edge selected (R216, R218). -/
theorem cl1_latches_iff (cfg : Config) (v : Via) :
    (v.cl1Active cfg && v.ier.getLsbD cfg.cl1IfrBit.val) = true ↔
      v.ier.getLsbD cfg.cl1IfrBit.val = true ∧ v.pcr.getLsbD cfg.cl1PcrBit.val = decide (cfg.cl1AssertEdge = .rising) := by
  simp only [Via.cl1Active, Bool.and_eq_true]
  cases cfg.cl1AssertEdge <;> simp [and_comm]

/-! ### Cause bits are only ever set by a transfer -/

/-- Every cause bit set before is set after. -/
def CausesGrow (s t : State) : Prop := ∀ d k, (s.via d).ifr.getLsbD k = true → (t.via d).ifr.getLsbD k = true

theorem CausesGrow.trans {s t u : State} (h : CausesGrow s t) (k : CausesGrow t u) : CausesGrow s u :=
  fun d j hh => k d j (h d j hh)

theorem CausesGrow.of_via {s t : State} (h : ∀ d, t.via d = s.via d) : CausesGrow s t :=
  fun d k hh => by rw [h]; exact hh

theorem setSc_causesGrow (k : StorageCtl) (s : State) : CausesGrow s (s.setSc k) :=
  CausesGrow.of_via fun d => State.setSc_via s k d

theorem assertCl1_causesGrow (c : ViaId) (s : State) : CausesGrow s (assertCl1 c s) := by
  intro d k h
  simp only [assertCl1, State.setVia_via]
  split
  · next e =>
    subst e
    have hk : k < 7 := by
      by_contra hk
      rw [BitVec.getLsbD_of_ge _ _ (by omega)] at h; cases h
    simp only [Via.assertCl1]
    split
    · simp only [getLsbD_setBit7 _ _ _ hk, h, Bool.true_or]
    · exact h
  · exact h

@[simp] theorem scCopyByte_via (i : Nat) (s : State) (c : ViaId) : (scCopyByte i s).via c = s.via c := by
  simp only [scCopyByte]
  split
  · exact State.setMem_via s _ c
  · exact State.setStore_via s _ c

@[simp] theorem scCopyRun_via (n : Nat) : ∀ (i : Nat) (s : State) (c : ViaId), (scCopyRun i n s).via c = s.via c := by
  induction n with
  | zero => intros; rfl
  | succ n ih => intro i s c; simp only [scCopyRun]; rw [ih, scCopyByte_via]

theorem scTransfer_causesGrow (s : State) : CausesGrow s (scTransfer s) :=
  (CausesGrow.of_via fun d => scCopyRun_via _ _ _ d).trans
    ((assertCl1_causesGrow _ _).trans (setSc_causesGrow _ _))

theorem scStart_causesGrow (c : Companion) (s : State) : CausesGrow s (scStart c s) := by
  cases c
  · exact (setSc_causesGrow _ s).trans (scTransfer_causesGrow _)
  · exact setSc_causesGrow _ s

theorem scCommit_causesGrow (c : Companion) (s : State) : CausesGrow s (scCommit c s) := by
  simp only [scCommit]
  split
  · exact setSc_causesGrow _ s
  · split
    · exact setSc_causesGrow _ s
    · split
      · exact (setSc_causesGrow _ s).trans (scStart_causesGrow _ _)
      · exact setSc_causesGrow _ s

theorem scWriteByte_causesGrow (b : Byte) (c : Companion) (s : State) : CausesGrow s (scWriteByte b c s) := by
  simp only [scWriteByte]
  split
  · exact setSc_causesGrow _ s
  · exact setSc_causesGrow _ s
  · split
    · exact (setSc_causesGrow _ s).trans (scCommit_causesGrow _ _)
    · exact setSc_causesGrow _ s

end Sys2Proof.Machine
end

