-- ==== Sys2Proof/Laws/Storage.lean ====
section
/-! SUPPORT. The laws of a transfer: what a run of byte copies writes, byte for byte, in each direction; that it leaves the
controller's registers and the VIAs alone; and what the transfer as a whole is. -/

namespace Sys2Proof.Machine

@[simp] theorem scCopyByte_sc (i : Nat) (s : State) : (scCopyByte i s).sc = s.sc := by
  simp only [scCopyByte]
  split <;> rfl

@[simp] theorem scCopyRun_sc (n : Nat) : ∀ (i : Nat) (s : State), (scCopyRun i n s).sc = s.sc := by
  induction n with
  | zero => intros; rfl
  | succ n ih => intro i s; simp only [scCopyRun, ih, scCopyByte_sc]

/-- A run of copies changes the two memories at most. -/
theorem scCopyRun_shape (n : Nat) : ∀ (i : Nat) (s : State),
    scCopyRun i n s = { s with mem := (scCopyRun i n s).mem, store := (scCopyRun i n s).store } := by
  intro i s
  have h := scCopyRun_sameCpu n i s
  have hf : (scCopyRun i n s).dmaPlan = s.dmaPlan ∧ (scCopyRun i n s).dmaWait = s.dmaWait ∧
      (scCopyRun i n s).freeIndex = s.freeIndex := by
    clear h
    induction n generalizing i s with
    | zero => exact ⟨rfl, rfl, rfl⟩
    | succ n ih =>
      have := ih (i + 1) (scCopyByte i s)
      simp only [scCopyRun, this]
      simp only [scCopyByte]
      split <;> exact ⟨rfl, rfl, rfl⟩
  exact State.ext h.cfg h.a h.x h.y h.sp h.p h.pc h.cyc h.nmiLatch h.lines rfl rfl (scCopyRun_via n i s .via1)
    (scCopyRun_via n i s .via2) (scCopyRun_via n i s .via3) (scCopyRun_sc n i s) h.script hf.1 hf.2.1 hf.2.2

/-- Which copy of a run writes a store byte. -/
theorem storeAddr_index {i : Nat} (hi : i < 2048) (k a : StoreAddr) :
    k.toNat = (a + BitVec.ofNat 22 i).toNat ↔ (k - a).toNat = i := by
  have hk := k.isLt
  have ha := a.isLt
  simp only [BitVec.toNat_add, BitVec.toNat_sub, BitVec.toNat_ofNat]
  omega

/-- Which copy of a run writes a byte of Bus memory. -/
theorem addr_index {i : Nat} (hi : i < 2048) (b a : Addr) : b = a + BitVec.ofNat 16 i ↔ (b - a).toNat = i := by
  have hb := b.isLt
  have ha := a.isLt
  rw [← addr_toNat_inj]
  simp only [BitVec.toNat_add, BitVec.toNat_sub, BitVec.toNat_ofNat]
  omega

/-- A receive leaves Bus memory alone and writes the store bytes of its range (R243). -/
theorem scCopyRun_receive (n : Nat) : ∀ (i : Nat) (s : State), s.sc.dir = .receive → s.store.wf 4194304 = true → i + n ≤ 2048 →
    (scCopyRun i n s).mem = s.mem ∧ (scCopyRun i n s).store.wf 4194304 = true ∧
      ∀ k : StoreAddr, (scCopyRun i n s).store.read k.toNat =
        if i ≤ (k - s.sc.ar).toNat ∧ (k - s.sc.ar).toNat < i + n then
          ramRead (s.sc.dsr + BitVec.ofNat 16 (k - s.sc.ar).toNat) s
        else s.store.read k.toNat := by
  induction n with
  | zero =>
    intro i s _ hw _
    refine ⟨rfl, hw, fun k => ?_⟩
    rw [if_neg (by omega)]
    rfl
  | succ n ih =>
    intro i s hd hw hi
    let v := ramRead (s.sc.dsr + BitVec.ofNat 16 i) s
    let st := s.store.write (s.sc.ar + BitVec.ofNat 22 i).toNat v
    have hs : scCopyByte i s = s.setStore st := by simp only [scCopyByte, hd]; rfl
    have hw' : st.wf 4194304 = true := Memory.wf_write hw (s.sc.ar + BitVec.ofNat 22 i).isLt v
    have key := ih (i + 1) (s.setStore st) hd hw' (by omega)
    rw [← hs] at key
    refine ⟨key.1.trans (by rw [hs]; rfl), key.2.1, fun k => ?_⟩
    have hk : (scCopyRun (i + 1) n (scCopyByte i s)).store.read k.toNat =
        if i + 1 ≤ (k - s.sc.ar).toNat ∧ (k - s.sc.ar).toNat < i + 1 + n then
          ramRead (s.sc.dsr + BitVec.ofNat 16 (k - s.sc.ar).toNat) s
        else st.read k.toNat := by
      have h3 := key.2.2 k
      rw [hs] at h3 ⊢
      exact h3
    have hr : st.read k.toNat = if k.toNat = (s.sc.ar + BitVec.ofNat 22 i).toNat then v else s.store.read k.toNat :=
      Memory.read_write_wf hw _ _ _
    simp only [scCopyRun, hk, hr, storeAddr_index (show i < 2048 by omega)]
    by_cases he : (k - s.sc.ar).toNat = i
    · rw [if_neg (by omega), if_pos he, if_pos (by omega), he]
    · rw [if_neg he]
      by_cases hin : i + 1 ≤ (k - s.sc.ar).toNat ∧ (k - s.sc.ar).toNat < i + 1 + n
      · rw [if_pos hin, if_pos (by omega)]
      · rw [if_neg hin, if_neg (by omega)]

/-- A send leaves the store alone and writes the Bus bytes of its range (R243). -/
theorem scCopyRun_send (n : Nat) : ∀ (i : Nat) (s : State), s.sc.dir = .send → s.mem.wf 65536 = true → i + n ≤ 2048 →
    (scCopyRun i n s).store = s.store ∧ (scCopyRun i n s).mem.wf 65536 = true ∧
      ∀ b : Addr, ramRead b (scCopyRun i n s) =
        if i ≤ (b - s.sc.dsr).toNat ∧ (b - s.sc.dsr).toNat < i + n then
          s.store.read (s.sc.ar + BitVec.ofNat 22 (b - s.sc.dsr).toNat).toNat
        else ramRead b s := by
  induction n with
  | zero =>
    intro i s _ hw _
    refine ⟨rfl, hw, fun b => ?_⟩
    rw [if_neg (by omega)]
    rfl
  | succ n ih =>
    intro i s hd hw hi
    let v := s.store.read (s.sc.ar + BitVec.ofNat 22 i).toNat
    let a : Addr := s.sc.dsr + BitVec.ofNat 16 i
    have hs : scCopyByte i s = ramWrite a v s := by simp only [scCopyByte, hd]; rfl
    have key := ih (i + 1) (ramWrite a v s) hd (ramWrite_wf hw a v) (by omega)
    rw [← hs] at key
    refine ⟨key.1.trans (by rw [hs]; rfl), key.2.1, fun b => ?_⟩
    have hb : ramRead b (scCopyRun (i + 1) n (scCopyByte i s)) =
        if i + 1 ≤ (b - s.sc.dsr).toNat ∧ (b - s.sc.dsr).toNat < i + 1 + n then
          s.store.read (s.sc.ar + BitVec.ofNat 22 (b - s.sc.dsr).toNat).toNat
        else ramRead b (ramWrite a v s) := by
      have h3 := key.2.2 b
      rw [hs] at h3 ⊢
      exact h3
    simp only [scCopyRun, hb, ramRead_ramWrite hw, a, v, addr_index (show i < 2048 by omega)]
    by_cases he : (b - s.sc.dsr).toNat = i
    · rw [if_neg (by omega), if_pos he, if_pos (by omega), he]
    · rw [if_neg he]
      by_cases hin : i + 1 ≤ (b - s.sc.dsr).toNat ∧ (b - s.sc.dsr).toNat < i + 1 + n
      · rw [if_pos hin, if_pos (by omega)]
      · rw [if_neg hin, if_neg (by omega)]

/-- The assertion that ends a transfer sees the VIAs alone, so it may be made before or after the latches are cleared. -/
theorem scFinish_eq (s : State) : scFinish s = assertCl1 (companionVia s.sc.comp) (s.setSc s.sc.finished) := by
  simp only [scFinish, assertCl1]
  cases s.sc.comp <;> rfl

/-- A transfer is its run of copies, then the controller at rest and the companion's control line asserted (R243, R244). -/
theorem scTransfer_eq (s : State) :
    scTransfer s = assertCl1 (companionVia s.sc.comp)
      { s with
        mem := (scCopyRun 0 s.sc.olr.toNat s).mem, store := (scCopyRun 0 s.sc.olr.toNat s).store, sc := s.sc.finished } := by
  rw [scTransfer, scFinish_eq, scCopyRun_sc]
  conv => lhs; rw [scCopyRun_shape]
  rfl

/-- The index of the byte in flight does not enter a run of copies. -/
theorem scCopyRun_setXferI (k n : Nat) : ∀ (i : Nat) (s : State),
    scCopyRun i n (s.setSc { s.sc with xferI := k }) = (scCopyRun i n s).setSc { s.sc with xferI := k } := by
  induction n with
  | zero => intros; rfl
  | succ n ih =>
    intro i s
    have hc : scCopyByte i (s.setSc { s.sc with xferI := k }) = (scCopyByte i s).setSc { (scCopyByte i s).sc with xferI := k } := by
      simp only [scCopyByte, State.setSc_sc]
      split <;> rfl
    simp only [scCopyRun]
    rw [hc, ih, scCopyByte_sc]

/-! ### The DMA agent -/

/-- The controller's part of a finished transfer (R244). -/
theorem scFinish_rest (s : State) : (scFinish s).sc.busy = false ∧ (scFinish s).sc.arSet = false := by
  simp [scFinish, StorageCtl.finished]

/-- What one DmaStep can do to the transfer: it ends it, or it moves the byte at XFER_I and goes on to the next (R245). -/
theorem dmaStep_cases (s : State) :
    ((dmaStep s).sc.busy = false ∧ (dmaStep s).sc.arSet = false) ∨
      (s.sc.xferI < s.sc.olr.toNat ∧ dmaStep s = (scCopyByte s.sc.xferI s).setSc { s.sc with xferI := s.sc.xferI + 1 }) := by
  simp only [dmaStep]
  split
  · exact .inl (scFinish_rest _)
  · split
    · next h => exact .inr ⟨h, by simp only [scCopyByte_sc]⟩
    · exact .inl (scFinish_rest s)

@[simp] theorem scCopyByte_dmaPlan (i : Nat) (s : State) : (scCopyByte i s).dmaPlan = s.dmaPlan := by
  simp only [scCopyByte]
  split <;> rfl

@[simp] theorem scCopyByte_dmaWait (i : Nat) (s : State) : (scCopyByte i s).dmaWait = s.dmaWait := by
  simp only [scCopyByte]
  split <;> rfl

/-- What `n` DmaSteps can do to a transfer in flight: end it, or move its index `n` further and leave the agent's plan and wait
as they were. -/
theorem dmaSteps_cases (n : Nat) : ∀ s : State, s.sc.busy = true → s.sc.xferI ≤ s.sc.olr.toNat →
    ((dmaSteps n s).sc.busy = false ∧ (dmaSteps n s).sc.arSet = false) ∨
      ((dmaSteps n s).sc = { s.sc with xferI := s.sc.xferI + n } ∧ s.sc.xferI + n ≤ s.sc.olr.toNat ∧
        (dmaSteps n s).dmaPlan = s.dmaPlan ∧ (dmaSteps n s).dmaWait = s.dmaWait) := by
  induction n with
  | zero => exact fun s _ h => .inr ⟨rfl, h, rfl, rfl⟩
  | succ n ih =>
    intro s hb hx
    rw [dmaSteps, if_pos hb]
    obtain h | ⟨hi, h⟩ := dmaStep_cases s
    · left
      cases n with
      | zero => exact h
      | succ n => simpa [dmaSteps, h.1] using h.2
    · rw [h]
      obtain g | ⟨g1, g2, g3, g4⟩ :=
        ih ((scCopyByte s.sc.xferI s).setSc { s.sc with xferI := s.sc.xferI + 1 }) hb (by simp only [State.setSc_sc]; omega)
      · exact .inl g
      · simp only [State.setSc_sc] at g1 g2
        refine .inr ⟨by rw [g1, Nat.add_assoc, Nat.add_comm 1], by omega, by simpa using g3, by simpa using g4⟩

/-! ### Feeding bytes through instance 2 -/

/-- A write to a feed port of instance 2: the output latch, then the storage controller (R208). -/
theorem viaWrite_feed2 (p : Port) (s : State) (v : Byte) (h : (Companion.via2, p) ∈ s.cfg.scFeed) :
    viaWrite .via2 (portOffset p) v s = scWriteByte v .via2 (s.setVia .via2 (s.via2.setOutLatch p v)) := by
  simp only [viaWrite, viaReg_portOffset, feed, companionOf, State.setVia_cfg]
  rw [if_pos (by simpa using h)]
  rfl

/-- Three bytes from PHASE 0, the last with its commit bit set, are one commit of the value they spell (R236). -/
theorem feedBytes_three (s : State) (p : Port) (b0 b1 b2 : Byte) (h : (Companion.via2, p) ∈ s.cfg.scFeed)
    (hp : s.sc.phase = .byte0) (h7 : b2.getLsbD 7 = true) :
    feedBytes .via2 p [b0, b1, b2] s =
      scCommit .via2 ((s.setVia .via2 (s.via2.setOutLatch p b2)).setSc
        { s.sc with
          scratch := s.sc.scratch ||| b0.setWidth 22 ||| (b1.setWidth 22 <<< 8) ||| ((b2.setWidth 22 &&& 0x3F#22) <<< 16),
          dir := if b2.getLsbD 6 then .send else .receive, phase := .byte0 }) := by
  have e1 : ∀ u : State, u.sc.phase = .byte0 → scWriteByte b0 .via2 u =
      u.setSc { u.sc with scratch := u.sc.scratch ||| b0.setWidth 22, phase := .byte1 } := by
    intro u hu; simp only [scWriteByte, hu]
  have e2 : ∀ u : State, u.sc.phase = .byte1 → scWriteByte b1 .via2 u =
      u.setSc { u.sc with scratch := u.sc.scratch ||| (b1.setWidth 22 <<< 8), phase := .byte2 } := by
    intro u hu; simp only [scWriteByte, hu]
  have e3 : ∀ u : State, u.sc.phase = .byte2 → scWriteByte b2 .via2 u =
      scCommit .via2 (u.setSc
        { u.sc with
          scratch := u.sc.scratch ||| ((b2.setWidth 22 &&& 0x3F#22) <<< 16),
          dir := if b2.getLsbD 6 then .send else .receive, phase := .byte0 }) := by
    intro u hu; simp only [scWriteByte, hu, h7, if_true]
  show viaWrite .via2 (portOffset p) b2 (viaWrite .via2 (portOffset p) b1 (viaWrite .via2 (portOffset p) b0 s)) = _
  have w0 : viaWrite .via2 (portOffset p) b0 s = (s.setVia .via2 (s.via2.setOutLatch p b0)).setSc
      { s.sc with scratch := s.sc.scratch ||| b0.setWidth 22, phase := .byte1 } := by
    rw [viaWrite_feed2 p s b0 h, e1 _ (by simpa using hp)]
    simp only [State.setVia_sc]
  have w1 : viaWrite .via2 (portOffset p) b1 (viaWrite .via2 (portOffset p) b0 s) =
      (s.setVia .via2 (s.via2.setOutLatch p b1)).setSc
        { s.sc with scratch := s.sc.scratch ||| b0.setWidth 22 ||| (b1.setWidth 22 <<< 8), phase := .byte2 } := by
    rw [w0, viaWrite_feed2 p _ b1 (by simpa using h), e2 _ (by simp)]
    cases p <;> rfl
  rw [w1, viaWrite_feed2 p _ b2 (by simpa using h), e3 _ (by simp)]
  congr 1
  cases p <;> rfl

end Sys2Proof.Machine
end

