-- ==== Sys2Proof/Laws/Invariant.lean ====
section
/-! SUPPORT. The invariant through the operations on memories, VIAs and the storage controller. -/

namespace Sys2Proof.Machine

/-- The invariant looks at the memories, the storage controller, the VIAs and the parameters alone. -/
theorem inv_congr {s t : State} (h : s.Inv) (hc : t.cfg = s.cfg) (hm : t.mem = s.mem) (hst : t.store = s.store)
    (hsc : t.sc = s.sc) (h1 : t.via1 = s.via1) (h2 : t.via2 = s.via2) (h3 : t.via3 = s.via3) : t.Inv := by
  rw [State.Inv, hc, hm, hst, hsc, h1, h2, h3]
  exact h

/-! The CPU's registers, lines and the model's own fields do not enter the invariant. -/

@[simp] theorem inv_setA (s : State) (v : Byte) : (s.setA v).Inv ↔ s.Inv := Iff.rfl
@[simp] theorem inv_setX (s : State) (v : Byte) : (s.setX v).Inv ↔ s.Inv := Iff.rfl
@[simp] theorem inv_setY (s : State) (v : Byte) : (s.setY v).Inv ↔ s.Inv := Iff.rfl
@[simp] theorem inv_setSp (s : State) (v : Byte) : (s.setSp v).Inv ↔ s.Inv := Iff.rfl
@[simp] theorem inv_setP (s : State) (v : Byte) : (s.setP v).Inv ↔ s.Inv := Iff.rfl
@[simp] theorem inv_setNZ (s : State) (v : Byte) : (s.setNZ v).Inv ↔ s.Inv := Iff.rfl
@[simp] theorem inv_setPc (s : State) (v : Addr) : (s.setPc v).Inv ↔ s.Inv := Iff.rfl
@[simp] theorem inv_charge (s : State) (n : Nat) : (s.charge n).Inv ↔ s.Inv := Iff.rfl
@[simp] theorem inv_setNmiLatch (s : State) (b : Bool) : (s.setNmiLatch b).Inv ↔ s.Inv := Iff.rfl
@[simp] theorem inv_setLines (s : State) (l : Lines) : (s.setLines l).Inv ↔ s.Inv := Iff.rfl
@[simp] theorem inv_setScript (s : State) (l : List Turn) : (s.setScript l).Inv ↔ s.Inv := Iff.rfl
@[simp] theorem inv_setDmaPlan (s : State) (l : List Nat) : (s.setDmaPlan l).Inv ↔ s.Inv := Iff.rfl
@[simp] theorem inv_setDmaWait (s : State) (w : Option Nat) : (s.setDmaWait w).Inv ↔ s.Inv := Iff.rfl
@[simp] theorem inv_drawFree (s : State) : s.drawFree.Inv ↔ s.Inv := Iff.rfl

theorem inv_setMem {s : State} (h : s.Inv) {m : Memory} (hm : m.wf 65536 = true) : (s.setMem m).Inv := ⟨hm, h.2⟩

theorem inv_setStore {s : State} (h : s.Inv) {m : Memory} (hm : m.wf 4194304 = true) : (s.setStore m).Inv :=
  ⟨h.1, hm, h.2.2⟩

theorem inv_setSc {s : State} (h : s.Inv) {k : StorageCtl} (hk : k.disciplined) : (s.setSc k).Inv :=
  ⟨h.1, h.2.1, hk, h.2.2.2⟩

theorem inv_via {s : State} (h : s.Inv) (c : ViaId) : (s.via c).disciplined s.cfg := by
  obtain ⟨-, -, -, h1, h2, h3⟩ := h
  cases c
  · exact h1
  · exact h2
  · exact h3

theorem inv_setVia {s : State} (h : s.Inv) (c : ViaId) {v : Via} (hv : v.disciplined s.cfg) : (s.setVia c v).Inv := by
  obtain ⟨hm, hst, hsc, h1, h2, h3⟩ := h
  cases c
  · exact ⟨hm, hst, hsc, hv, h2, h3⟩
  · exact ⟨hm, hst, hsc, h1, hv, h3⟩
  · exact ⟨hm, hst, hsc, h1, h2, hv⟩

theorem inv_ramWrite {s : State} (h : s.Inv) (a : Addr) (v : Byte) : (ramWrite a v s).Inv :=
  inv_setMem h (ramWrite_wf h.1 a v)

theorem inv_scCopyByte {s : State} (h : s.Inv) (i : Nat) : (scCopyByte i s).Inv := by
  simp only [Machine.scCopyByte]
  split
  · exact inv_ramWrite h _ _
  · exact inv_setStore h (Memory.wf_write h.2.1 (s.sc.ar + BitVec.ofNat 22 i).isLt _)

theorem scCopyRun_wf (n : Nat) : ∀ (i : Nat) {s : State}, s.mem.wf 65536 = true → s.store.wf 4194304 = true →
    (scCopyRun i n s).mem.wf 65536 = true ∧ (scCopyRun i n s).store.wf 4194304 = true := by
  induction n with
  | zero => exact fun _ _ h k => ⟨h, k⟩
  | succ n ih =>
    intro i s h k
    refine ih (i + 1) ?_ ?_
    · simp only [Machine.scCopyByte]
      split
      · exact ramWrite_wf h _ _
      · exact h
    · simp only [Machine.scCopyByte]
      split
      · exact k
      · exact Memory.wf_write k (s.sc.ar + BitVec.ofNat 22 i).isLt _

/-- Clearing a bit of a register in which no other bit is set leaves it clear of others, whichever bit it is. -/
theorem clearBit7_and {r m : BitVec 7} {k : Nat} (h : clearBit7 r k = 0) : clearBit7 (r &&& m) k = 0 := by
  refine BitVec.eq_of_getLsbD_eq fun j hj => ?_
  have := congrArg (fun v => v.getLsbD j) h
  rw [getLsbD_clearBit7 _ _ _ hj] at this ⊢
  rw [BitVec.getLsbD_and, Bool.and_right_comm, this]
  simp

theorem clearBit7_setBit7 {r : BitVec 7} {k : Nat} (h : clearBit7 r k = 0) : clearBit7 (setBit7 r k) k = 0 := by
  refine BitVec.eq_of_getLsbD_eq fun j hj => ?_
  have := congrArg (fun v => v.getLsbD j) h
  rw [getLsbD_clearBit7 _ _ _ hj] at this ⊢
  rw [getLsbD_setBit7 _ _ _ hj]
  by_cases hk : j = k
  · simp [hk]
  · rw [decide_eq_false hk, Bool.or_false]
    exact this

theorem disciplined_portRead {cfg : Config} {v : Via} (h : v.disciplined cfg) (p : Port) :
    (v.portRead cfg p).disciplined cfg := by
  cases p <;> exact ⟨clearBit7_and h.1, h.2⟩

theorem disciplined_writeIfr {cfg : Config} {v : Via} (h : v.disciplined cfg) (b : Byte) : (v.writeIfr b).disciplined cfg :=
  ⟨clearBit7_and h.1, h.2⟩

theorem disciplined_writeIer {cfg : Config} {v : Via} (h : v.disciplined cfg) (b : Byte) : (v.writeIer b).disciplined cfg := by
  rw [Via.writeIer]
  split <;> exact h

theorem disciplined_setDdr {cfg : Config} {v : Via} (h : v.disciplined cfg) (p : Port) (b : Byte) :
    (v.setDdr p b).disciplined cfg := by
  cases p <;> exact h

theorem disciplined_setPin {cfg : Config} {v : Via} (h : v.disciplined cfg) (p : Port) (b : Byte) :
    (v.setPin p b).disciplined cfg := by
  cases p <;> exact h

theorem disciplined_setOutLatch {cfg : Config} {v : Via} (h : v.disciplined cfg) (p : Port) (b : Byte) :
    (v.setOutLatch p b).disciplined cfg := by
  cases p <;> exact h

theorem disciplined_assertCl1 {cfg : Config} {v : Via} (h : v.disciplined cfg) : (v.assertCl1 cfg).disciplined cfg := by
  rw [Via.assertCl1]
  split
  · generalize cfg.cl1Port = p
    cases p <;> exact ⟨clearBit7_setBit7 h.1, h.2⟩
  · exact h

theorem inv_assertCl1 {s : State} (h : s.Inv) (c : ViaId) : (assertCl1 c s).Inv :=
  inv_setVia h c (disciplined_assertCl1 (inv_via h c))

theorem disciplined_finished (k : StorageCtl) : k.finished.disciplined := by
  simp [StorageCtl.disciplined, StorageCtl.finished]

theorem inv_scFinish {s : State} (h : s.Inv) : (scFinish s).Inv :=
  inv_setSc (inv_assertCl1 h _) (disciplined_finished _)

/-- A transfer leaves the controller at rest, so it needs no discipline of it. -/
theorem inv_scTransfer {s : State} (h : (s.setSc s.sc.finished).Inv) : (scTransfer s).Inv := by
  rw [scTransfer_eq]
  have hw := scCopyRun_wf s.sc.olr.toNat 0 (s := s) h.1 h.2.1
  refine inv_assertCl1 ?_ _
  exact ⟨hw.1, hw.2, h.2.2⟩

theorem inv_scCommit {s : State} (h : s.Inv) (c : Companion) : (scCommit c s).Inv := by
  obtain ⟨k1, k2, k3, k4, k5⟩ := h.2.2.1
  simp only [scCommit]
  split
  · next hd =>
    refine inv_setSc h ?_
    have ha : s.sc.arSet = false := by
      cases ha : s.sc.arSet
      · rfl
      · exact absurd (k2 ha) (by simp [hd])
    have hb : s.sc.busy = false := by
      cases hb : s.sc.busy
      · rfl
      · exact absurd (k1.1 hb).1 (by simp [hd])
    have ho : s.sc.olrSet = false := by
      cases ho : s.sc.olrSet
      · rfl
      · exact absurd (k3 ho) (by simp [ha])
    simp [StorageCtl.disciplined, ha, hb, ho, k5 hb]
  · next hd =>
    have hd : s.sc.dsrSet = true := by simpa using hd
    split
    · next ha =>
      refine inv_setSc h ?_
      have hb : s.sc.busy = false := by
        cases hb : s.sc.busy
        · rfl
        · exact absurd (k1.1 hb).2.1 (by simp [ha])
      have ho : s.sc.olrSet = false := by
        cases ho : s.sc.olrSet
        · rfl
        · exact absurd (k3 ho) (by simp [ha])
      simp [StorageCtl.disciplined, hd, hb, ho, k5 hb]
    · next ha =>
      have ha : s.sc.arSet = true := by simpa using ha
      split
      · cases c with
        | via2 =>
          exact inv_scTransfer (inv_setSc h (disciplined_finished _))
        | via3 => exact inv_setSc h (by simp [StorageCtl.disciplined, hd, ha])
      · exact inv_setSc h ⟨k1, k2, k3, k4, k5⟩

theorem inv_scWriteByte {s : State} (h : s.Inv) (b : Byte) (c : Companion) : (scWriteByte b c s).Inv := by
  have hk := h.2.2.1
  simp only [scWriteByte]
  split
  · exact inv_setSc h hk
  · exact inv_setSc h hk
  · split
    · exact inv_scCommit (inv_setSc h (k := { s.sc with scratch := _, dir := _, phase := .byte0 }) hk) c
    · exact inv_setSc h hk

theorem inv_dmaStep {s : State} (h : s.Inv) (hb : s.sc.busy = true) : (dmaStep s).Inv := by
  simp only [dmaStep]
  split
  · exact inv_scTransfer (inv_setSc h (disciplined_finished _))
  · split
    · next hi =>
      have h1 := inv_scCopyByte h s.sc.xferI
      have e : (scCopyByte s.sc.xferI s).sc = s.sc := by
        simp only [scCopyByte]
        split <;> rfl
      refine inv_setSc h1 ?_
      rw [e]
      obtain ⟨k1, k2, k3, k4, -⟩ := h.2.2.1
      exact ⟨k1, k2, k3, fun hb => ⟨(k4 hb).1, hi⟩, fun hn => absurd (hn ▸ hb) (by decide)⟩
    · exact inv_scFinish h

theorem inv_dmaSteps (n : Nat) : ∀ {s : State}, s.Inv → (dmaSteps n s).Inv := by
  induction n with
  | zero => exact fun h => h
  | succ n ih =>
    intro s h
    rw [dmaSteps]
    split
    · next hb => exact ih (inv_dmaStep h hb)
    · exact h

theorem inv_dmaFreeTurn {s : State} (h : s.Inv) : (dmaFreeTurn s).Inv := by
  rw [dmaFreeTurn]
  split
  · exact inv_dmaSteps _ (s := (s.setDmaWait none).drawFree) h
  · exact h

theorem inv_dmaTurn {s : State} (h : s.Inv) : (dmaTurn s).Inv := by
  rw [dmaTurn]
  split
  · split
    · next n rest _ => exact inv_dmaSteps n (s := s.setDmaPlan rest) h
    · exact inv_dmaFreeTurn h
  · exact h

theorem inv_viaRead {s : State} (h : s.Inv) (c : ViaId) (o : BitVec 4) : (viaRead c o s).2.Inv := by
  rw [viaRead]
  split
  · next p _ => exact inv_setVia h c (disciplined_portRead (inv_via h c) p)
  all_goals exact h

theorem inv_feed {s : State} (h : s.Inv) (c : ViaId) (p : Port) (v : Byte) : (feed c p v s).Inv := by
  rw [feed]
  split
  · split
    · exact inv_scWriteByte h _ _
    · exact h
  · exact h

theorem inv_viaWrite {s : State} (h : s.Inv) (c : ViaId) (o : BitVec 4) (v : Byte) : (viaWrite c o v s).Inv := by
  have hv := inv_via h c
  rw [viaWrite]
  split
  · next p _ => exact inv_feed (inv_setVia h c (disciplined_setOutLatch hv p v)) c p v
  · next p _ => exact inv_setVia h c (disciplined_setDdr hv p v)
  · exact inv_setVia h c hv
  · exact inv_setVia h c (disciplined_writeIfr hv v)
  · exact inv_setVia h c (disciplined_writeIer hv v)
  · exact h

theorem inv_memRead {s : State} (h : s.Inv) (a : Addr) : (memRead a s).2.Inv := by
  simp only [memRead, busRead]
  split
  · exact inv_viaRead (inv_dmaTurn h) _ _
  · exact inv_dmaTurn h

theorem inv_memWrite {s : State} (h : s.Inv) (a : Addr) (v : Byte) : (memWrite a v s).Inv := by
  simp only [memWrite, busWrite]
  split
  · exact inv_viaWrite (inv_dmaTurn h) _ _ _
  · exact inv_ramWrite (inv_dmaTurn h) _ _

theorem inv_read16 {s : State} (h : s.Inv) (a : Addr) : (read16 a s).2.Inv := inv_memRead (inv_memRead h a) _

theorem inv_read16zp {s : State} (h : s.Inv) (z : Byte) : (read16zp z s).2.Inv := inv_memRead (inv_memRead h _) _

theorem inv_push {s : State} (h : s.Inv) (v : Byte) : (push v s).Inv := by
  rw [push]
  exact (inv_setSp _ _).2 (inv_memWrite h _ _)

theorem inv_pull {s : State} (h : s.Inv) : (pull s).2.Inv := by
  rw [pull]
  exact inv_memRead ((inv_setSp _ _).2 h) _

theorem inv_takeException {s : State} (h : s.Inv) (ret : Addr) (status : Byte) (vec : Addr) :
    (takeException ret status vec s).Inv := by
  have h1 : (push status (push16 ret s)).Inv := inv_push (inv_push (inv_push h _) _) _
  rw [takeException]
  generalize push status (push16 ret s) = s1 at h1 ⊢
  have h2 := inv_read16 ((inv_setP s1 (entryFlags s1.cfg s1.p)).2 h1) vec
  exact (inv_charge _ 7).2 ((inv_setPc _ _).2 h2)

theorem inv_effAddr {s : State} (h : s.Inv) (m : Mode) : (effAddr m s).st.Inv := by
  cases m with
  | zpi z => rw [effAddr]; exact inv_read16zp h _
  | izx z => rw [effAddr]; exact inv_read16zp h _
  | izy z => rw [effAddr]; exact inv_read16zp h _
  | ind a => rw [effAddr]; exact inv_read16 h _
  | iax a => rw [effAddr]; exact inv_read16 h _
  | _ => rw [effAddr]; exact h

theorem inv_operandAt {s : State} (h : s.Inv) (m : Mode) : (operandAt m s).2.Inv := by
  cases m <;> first
    | exact h
    | exact inv_memRead (inv_effAddr h _) _

theorem inv_storeOperand {s : State} (h : s.Inv) (m : Mode) (v : Byte) : (storeOperand m v s).Inv := by
  rw [storeOperand]
  exact inv_memWrite (inv_effAddr h m) _ _

theorem inv_modifyOperand {s : State} (h : s.Inv) (m : Mode) (f : Byte → Byte × Byte) (c : Bool → Nat) :
    (modifyOperand m f c s).Inv := by
  have h1 := inv_memRead (inv_effAddr h m) (effAddr m s).addr
  have h2 := inv_memWrite ((inv_setP _ (f (memRead (effAddr m s).addr (effAddr m s).st).1).2).2 h1) (effAddr m s).addr
    (f (memRead (effAddr m s).addr (effAddr m s).st).1).1
  by_cases hm : m = .acc
  · rw [hm]
    exact h
  · rw [modifyOperand_memory hm]
    exact (inv_charge _ (c (effAddr m s).crossed)).2 h2

end Sys2Proof.Machine
end

