-- ==== Sys2Proof/Laws/PerInstr.lean ====
section
/-! SUPPORT. The family Encoding of LAWS.json: an instruction's own encoding, constructor by constructor. -/

namespace Sys2Proof.Laws.Encoding

open Sys2Proof.Machine

/-- A well-formed instruction has an opcode, has as many operand bytes as that opcode fetches, and is what the decoder
makes of the opcode and those bytes. -/
def Statement (i : Instr) : Prop :=
  i.wf = true → ∃ op, i.opcode? = some op ∧ i.operandBytes.length = operandCount op ∧
    decodeOpcode op (i.operandBytes.getD 0 0) (i.operandBytes.getD 1 0) = i

theorem lda (m : Mode) : Statement (.lda m) := by
  cases m <;> first
    | exact fun h => absurd h Bool.false_ne_true
    | refine fun _ => ⟨_, rfl, rfl, ?_⟩
      first
        | rfl
        | exact congrArg (fun a => Instr.lda (.abs a)) (mk16_hi8_lo8 _)
        | exact congrArg (fun a => Instr.lda (.abx a)) (mk16_hi8_lo8 _)
        | exact congrArg (fun a => Instr.lda (.aby a)) (mk16_hi8_lo8 _)

theorem ldx (m : Mode) : Statement (.ldx m) := by
  cases m <;> first
    | exact fun h => absurd h Bool.false_ne_true
    | refine fun _ => ⟨_, rfl, rfl, ?_⟩
      first
        | rfl
        | exact congrArg (fun a => Instr.ldx (.abs a)) (mk16_hi8_lo8 _)
        | exact congrArg (fun a => Instr.ldx (.aby a)) (mk16_hi8_lo8 _)

theorem ldy (m : Mode) : Statement (.ldy m) := by
  cases m <;> first
    | exact fun h => absurd h Bool.false_ne_true
    | refine fun _ => ⟨_, rfl, rfl, ?_⟩
      first
        | rfl
        | exact congrArg (fun a => Instr.ldy (.abs a)) (mk16_hi8_lo8 _)
        | exact congrArg (fun a => Instr.ldy (.abx a)) (mk16_hi8_lo8 _)

theorem sta (m : Mode) : Statement (.sta m) := by
  cases m <;> first
    | exact fun h => absurd h Bool.false_ne_true
    | refine fun _ => ⟨_, rfl, rfl, ?_⟩
      first
        | rfl
        | exact congrArg (fun a => Instr.sta (.abs a)) (mk16_hi8_lo8 _)
        | exact congrArg (fun a => Instr.sta (.abx a)) (mk16_hi8_lo8 _)
        | exact congrArg (fun a => Instr.sta (.aby a)) (mk16_hi8_lo8 _)

theorem stx (m : Mode) : Statement (.stx m) := by
  cases m <;> first
    | exact fun h => absurd h Bool.false_ne_true
    | refine fun _ => ⟨_, rfl, rfl, ?_⟩
      first
        | rfl
        | exact congrArg (fun a => Instr.stx (.abs a)) (mk16_hi8_lo8 _)

theorem sty (m : Mode) : Statement (.sty m) := by
  cases m <;> first
    | exact fun h => absurd h Bool.false_ne_true
    | refine fun _ => ⟨_, rfl, rfl, ?_⟩
      first
        | rfl
        | exact congrArg (fun a => Instr.sty (.abs a)) (mk16_hi8_lo8 _)

theorem stz (m : Mode) : Statement (.stz m) := by
  cases m <;> first
    | exact fun h => absurd h Bool.false_ne_true
    | refine fun _ => ⟨_, rfl, rfl, ?_⟩
      first
        | rfl
        | exact congrArg (fun a => Instr.stz (.abs a)) (mk16_hi8_lo8 _)
        | exact congrArg (fun a => Instr.stz (.abx a)) (mk16_hi8_lo8 _)

theorem ora (m : Mode) : Statement (.ora m) := by
  cases m <;> first
    | exact fun h => absurd h Bool.false_ne_true
    | refine fun _ => ⟨_, rfl, rfl, ?_⟩
      first
        | rfl
        | exact congrArg (fun a => Instr.ora (.abs a)) (mk16_hi8_lo8 _)
        | exact congrArg (fun a => Instr.ora (.abx a)) (mk16_hi8_lo8 _)
        | exact congrArg (fun a => Instr.ora (.aby a)) (mk16_hi8_lo8 _)

theorem and (m : Mode) : Statement (.and m) := by
  cases m <;> first
    | exact fun h => absurd h Bool.false_ne_true
    | refine fun _ => ⟨_, rfl, rfl, ?_⟩
      first
        | rfl
        | exact congrArg (fun a => Instr.and (.abs a)) (mk16_hi8_lo8 _)
        | exact congrArg (fun a => Instr.and (.abx a)) (mk16_hi8_lo8 _)
        | exact congrArg (fun a => Instr.and (.aby a)) (mk16_hi8_lo8 _)

theorem eor (m : Mode) : Statement (.eor m) := by
  cases m <;> first
    | exact fun h => absurd h Bool.false_ne_true
    | refine fun _ => ⟨_, rfl, rfl, ?_⟩
      first
        | rfl
        | exact congrArg (fun a => Instr.eor (.abs a)) (mk16_hi8_lo8 _)
        | exact congrArg (fun a => Instr.eor (.abx a)) (mk16_hi8_lo8 _)
        | exact congrArg (fun a => Instr.eor (.aby a)) (mk16_hi8_lo8 _)

theorem adc (m : Mode) : Statement (.adc m) := by
  cases m <;> first
    | exact fun h => absurd h Bool.false_ne_true
    | refine fun _ => ⟨_, rfl, rfl, ?_⟩
      first
        | rfl
        | exact congrArg (fun a => Instr.adc (.abs a)) (mk16_hi8_lo8 _)
        | exact congrArg (fun a => Instr.adc (.abx a)) (mk16_hi8_lo8 _)
        | exact congrArg (fun a => Instr.adc (.aby a)) (mk16_hi8_lo8 _)

theorem sbc (m : Mode) : Statement (.sbc m) := by
  cases m <;> first
    | exact fun h => absurd h Bool.false_ne_true
    | refine fun _ => ⟨_, rfl, rfl, ?_⟩
      first
        | rfl
        | exact congrArg (fun a => Instr.sbc (.abs a)) (mk16_hi8_lo8 _)
        | exact congrArg (fun a => Instr.sbc (.abx a)) (mk16_hi8_lo8 _)
        | exact congrArg (fun a => Instr.sbc (.aby a)) (mk16_hi8_lo8 _)

theorem bit (m : Mode) : Statement (.bit m) := by
  cases m <;> first
    | exact fun h => absurd h Bool.false_ne_true
    | refine fun _ => ⟨_, rfl, rfl, ?_⟩
      first
        | rfl
        | exact congrArg (fun a => Instr.bit (.abs a)) (mk16_hi8_lo8 _)
        | exact congrArg (fun a => Instr.bit (.abx a)) (mk16_hi8_lo8 _)

theorem tsb (m : Mode) : Statement (.tsb m) := by
  cases m <;> first
    | exact fun h => absurd h Bool.false_ne_true
    | refine fun _ => ⟨_, rfl, rfl, ?_⟩
      first
        | rfl
        | exact congrArg (fun a => Instr.tsb (.abs a)) (mk16_hi8_lo8 _)

theorem trb (m : Mode) : Statement (.trb m) := by
  cases m <;> first
    | exact fun h => absurd h Bool.false_ne_true
    | refine fun _ => ⟨_, rfl, rfl, ?_⟩
      first
        | rfl
        | exact congrArg (fun a => Instr.trb (.abs a)) (mk16_hi8_lo8 _)

theorem asl (m : Mode) : Statement (.asl m) := by
  cases m <;> first
    | exact fun h => absurd h Bool.false_ne_true
    | refine fun _ => ⟨_, rfl, rfl, ?_⟩
      first
        | rfl
        | exact congrArg (fun a => Instr.asl (.abs a)) (mk16_hi8_lo8 _)
        | exact congrArg (fun a => Instr.asl (.abx a)) (mk16_hi8_lo8 _)

theorem lsr (m : Mode) : Statement (.lsr m) := by
  cases m <;> first
    | exact fun h => absurd h Bool.false_ne_true
    | refine fun _ => ⟨_, rfl, rfl, ?_⟩
      first
        | rfl
        | exact congrArg (fun a => Instr.lsr (.abs a)) (mk16_hi8_lo8 _)
        | exact congrArg (fun a => Instr.lsr (.abx a)) (mk16_hi8_lo8 _)

theorem rol (m : Mode) : Statement (.rol m) := by
  cases m <;> first
    | exact fun h => absurd h Bool.false_ne_true
    | refine fun _ => ⟨_, rfl, rfl, ?_⟩
      first
        | rfl
        | exact congrArg (fun a => Instr.rol (.abs a)) (mk16_hi8_lo8 _)
        | exact congrArg (fun a => Instr.rol (.abx a)) (mk16_hi8_lo8 _)

theorem ror (m : Mode) : Statement (.ror m) := by
  cases m <;> first
    | exact fun h => absurd h Bool.false_ne_true
    | refine fun _ => ⟨_, rfl, rfl, ?_⟩
      first
        | rfl
        | exact congrArg (fun a => Instr.ror (.abs a)) (mk16_hi8_lo8 _)
        | exact congrArg (fun a => Instr.ror (.abx a)) (mk16_hi8_lo8 _)

theorem cmp (m : Mode) : Statement (.cmp m) := by
  cases m <;> first
    | exact fun h => absurd h Bool.false_ne_true
    | refine fun _ => ⟨_, rfl, rfl, ?_⟩
      first
        | rfl
        | exact congrArg (fun a => Instr.cmp (.abs a)) (mk16_hi8_lo8 _)
        | exact congrArg (fun a => Instr.cmp (.abx a)) (mk16_hi8_lo8 _)
        | exact congrArg (fun a => Instr.cmp (.aby a)) (mk16_hi8_lo8 _)

theorem cpx (m : Mode) : Statement (.cpx m) := by
  cases m <;> first
    | exact fun h => absurd h Bool.false_ne_true
    | refine fun _ => ⟨_, rfl, rfl, ?_⟩
      first
        | rfl
        | exact congrArg (fun a => Instr.cpx (.abs a)) (mk16_hi8_lo8 _)

theorem cpy (m : Mode) : Statement (.cpy m) := by
  cases m <;> first
    | exact fun h => absurd h Bool.false_ne_true
    | refine fun _ => ⟨_, rfl, rfl, ?_⟩
      first
        | rfl
        | exact congrArg (fun a => Instr.cpy (.abs a)) (mk16_hi8_lo8 _)

theorem inc (m : Mode) : Statement (.inc m) := by
  cases m <;> first
    | exact fun h => absurd h Bool.false_ne_true
    | refine fun _ => ⟨_, rfl, rfl, ?_⟩
      first
        | rfl
        | exact congrArg (fun a => Instr.inc (.abs a)) (mk16_hi8_lo8 _)
        | exact congrArg (fun a => Instr.inc (.abx a)) (mk16_hi8_lo8 _)

theorem dec (m : Mode) : Statement (.dec m) := by
  cases m <;> first
    | exact fun h => absurd h Bool.false_ne_true
    | refine fun _ => ⟨_, rfl, rfl, ?_⟩
      first
        | rfl
        | exact congrArg (fun a => Instr.dec (.abs a)) (mk16_hi8_lo8 _)
        | exact congrArg (fun a => Instr.dec (.abx a)) (mk16_hi8_lo8 _)

theorem inx : Statement .inx := fun _ => ⟨_, rfl, rfl, rfl⟩

theorem iny : Statement .iny := fun _ => ⟨_, rfl, rfl, rfl⟩

theorem dex : Statement .dex := fun _ => ⟨_, rfl, rfl, rfl⟩

theorem dey : Statement .dey := fun _ => ⟨_, rfl, rfl, rfl⟩

theorem bpl (rel8 : Byte) : Statement (.bpl rel8) := fun _ => ⟨_, rfl, rfl, rfl⟩

theorem bmi (rel8 : Byte) : Statement (.bmi rel8) := fun _ => ⟨_, rfl, rfl, rfl⟩

theorem bvc (rel8 : Byte) : Statement (.bvc rel8) := fun _ => ⟨_, rfl, rfl, rfl⟩

theorem bvs (rel8 : Byte) : Statement (.bvs rel8) := fun _ => ⟨_, rfl, rfl, rfl⟩

theorem bcc (rel8 : Byte) : Statement (.bcc rel8) := fun _ => ⟨_, rfl, rfl, rfl⟩

theorem bcs (rel8 : Byte) : Statement (.bcs rel8) := fun _ => ⟨_, rfl, rfl, rfl⟩

theorem bne (rel8 : Byte) : Statement (.bne rel8) := fun _ => ⟨_, rfl, rfl, rfl⟩

theorem beq (rel8 : Byte) : Statement (.beq rel8) := fun _ => ⟨_, rfl, rfl, rfl⟩

theorem bra (rel8 : Byte) : Statement (.bra rel8) := fun _ => ⟨_, rfl, rfl, rfl⟩

theorem jmp (m : Mode) : Statement (.jmp m) := by
  cases m <;> first
    | exact fun h => absurd h Bool.false_ne_true
    | refine fun _ => ⟨_, rfl, rfl, ?_⟩
      first
        | rfl
        | exact congrArg (fun a => Instr.jmp (.abs a)) (mk16_hi8_lo8 _)
        | exact congrArg (fun a => Instr.jmp (.ind a)) (mk16_hi8_lo8 _)
        | exact congrArg (fun a => Instr.jmp (.iax a)) (mk16_hi8_lo8 _)

theorem pha : Statement .pha := fun _ => ⟨_, rfl, rfl, rfl⟩

theorem php : Statement .php := fun _ => ⟨_, rfl, rfl, rfl⟩

theorem phx : Statement .phx := fun _ => ⟨_, rfl, rfl, rfl⟩

theorem phy : Statement .phy := fun _ => ⟨_, rfl, rfl, rfl⟩

theorem pla : Statement .pla := fun _ => ⟨_, rfl, rfl, rfl⟩

theorem plp : Statement .plp := fun _ => ⟨_, rfl, rfl, rfl⟩

theorem plx : Statement .plx := fun _ => ⟨_, rfl, rfl, rfl⟩

theorem ply : Statement .ply := fun _ => ⟨_, rfl, rfl, rfl⟩

theorem jsr (a : Addr) : Statement (.jsr a) := fun _ => ⟨_, rfl, rfl, congrArg Instr.jsr (mk16_hi8_lo8 a)⟩

theorem rts : Statement .rts := fun _ => ⟨_, rfl, rfl, rfl⟩

theorem rti : Statement .rti := fun _ => ⟨_, rfl, rfl, rfl⟩

theorem brk : Statement .brk := fun _ => ⟨_, rfl, rfl, rfl⟩

theorem tax : Statement .tax := fun _ => ⟨_, rfl, rfl, rfl⟩

theorem txa : Statement .txa := fun _ => ⟨_, rfl, rfl, rfl⟩

theorem tay : Statement .tay := fun _ => ⟨_, rfl, rfl, rfl⟩

theorem tya : Statement .tya := fun _ => ⟨_, rfl, rfl, rfl⟩

theorem tsx : Statement .tsx := fun _ => ⟨_, rfl, rfl, rfl⟩

theorem txs : Statement .txs := fun _ => ⟨_, rfl, rfl, rfl⟩

theorem clc : Statement .clc := fun _ => ⟨_, rfl, rfl, rfl⟩

theorem sec : Statement .sec := fun _ => ⟨_, rfl, rfl, rfl⟩

theorem cli : Statement .cli := fun _ => ⟨_, rfl, rfl, rfl⟩

theorem sei : Statement .sei := fun _ => ⟨_, rfl, rfl, rfl⟩

theorem cld : Statement .cld := fun _ => ⟨_, rfl, rfl, rfl⟩

theorem sed : Statement .sed := fun _ => ⟨_, rfl, rfl, rfl⟩

theorem clv : Statement .clv := fun _ => ⟨_, rfl, rfl, rfl⟩

theorem nop : Statement .nop := fun _ => ⟨_, rfl, rfl, rfl⟩

theorem rsv02 : Statement .rsv02 := fun _ => ⟨_, rfl, rfl, rfl⟩

theorem rsv03 : Statement .rsv03 := fun _ => ⟨_, rfl, rfl, rfl⟩

theorem rsv07 : Statement .rsv07 := fun _ => ⟨_, rfl, rfl, rfl⟩

theorem rsv0B : Statement .rsv0B := fun _ => ⟨_, rfl, rfl, rfl⟩

theorem rsv0F : Statement .rsv0F := fun _ => ⟨_, rfl, rfl, rfl⟩

theorem rsv13 : Statement .rsv13 := fun _ => ⟨_, rfl, rfl, rfl⟩

theorem rsv17 : Statement .rsv17 := fun _ => ⟨_, rfl, rfl, rfl⟩

theorem rsv1B : Statement .rsv1B := fun _ => ⟨_, rfl, rfl, rfl⟩

theorem rsv1F : Statement .rsv1F := fun _ => ⟨_, rfl, rfl, rfl⟩

theorem rsv22 : Statement .rsv22 := fun _ => ⟨_, rfl, rfl, rfl⟩

theorem rsv23 : Statement .rsv23 := fun _ => ⟨_, rfl, rfl, rfl⟩

theorem rsv27 : Statement .rsv27 := fun _ => ⟨_, rfl, rfl, rfl⟩

theorem rsv2B : Statement .rsv2B := fun _ => ⟨_, rfl, rfl, rfl⟩

theorem rsv2F : Statement .rsv2F := fun _ => ⟨_, rfl, rfl, rfl⟩

theorem rsv33 : Statement .rsv33 := fun _ => ⟨_, rfl, rfl, rfl⟩

theorem rsv37 : Statement .rsv37 := fun _ => ⟨_, rfl, rfl, rfl⟩

theorem rsv3B : Statement .rsv3B := fun _ => ⟨_, rfl, rfl, rfl⟩

theorem rsv3F : Statement .rsv3F := fun _ => ⟨_, rfl, rfl, rfl⟩

theorem rsv42 : Statement .rsv42 := fun _ => ⟨_, rfl, rfl, rfl⟩

theorem rsv43 : Statement .rsv43 := fun _ => ⟨_, rfl, rfl, rfl⟩

theorem rsv44 : Statement .rsv44 := fun _ => ⟨_, rfl, rfl, rfl⟩

theorem rsv47 : Statement .rsv47 := fun _ => ⟨_, rfl, rfl, rfl⟩

theorem rsv4B : Statement .rsv4B := fun _ => ⟨_, rfl, rfl, rfl⟩

theorem rsv4F : Statement .rsv4F := fun _ => ⟨_, rfl, rfl, rfl⟩

theorem rsv53 : Statement .rsv53 := fun _ => ⟨_, rfl, rfl, rfl⟩

theorem rsv54 : Statement .rsv54 := fun _ => ⟨_, rfl, rfl, rfl⟩

theorem rsv57 : Statement .rsv57 := fun _ => ⟨_, rfl, rfl, rfl⟩

theorem rsv5B : Statement .rsv5B := fun _ => ⟨_, rfl, rfl, rfl⟩

theorem rsv5C : Statement .rsv5C := fun _ => ⟨_, rfl, rfl, rfl⟩

theorem rsv5F : Statement .rsv5F := fun _ => ⟨_, rfl, rfl, rfl⟩

theorem rsv62 : Statement .rsv62 := fun _ => ⟨_, rfl, rfl, rfl⟩

theorem rsv63 : Statement .rsv63 := fun _ => ⟨_, rfl, rfl, rfl⟩

theorem rsv67 : Statement .rsv67 := fun _ => ⟨_, rfl, rfl, rfl⟩

theorem rsv6B : Statement .rsv6B := fun _ => ⟨_, rfl, rfl, rfl⟩

theorem rsv6F : Statement .rsv6F := fun _ => ⟨_, rfl, rfl, rfl⟩

theorem rsv73 : Statement .rsv73 := fun _ => ⟨_, rfl, rfl, rfl⟩

theorem rsv77 : Statement .rsv77 := fun _ => ⟨_, rfl, rfl, rfl⟩

theorem rsv7B : Statement .rsv7B := fun _ => ⟨_, rfl, rfl, rfl⟩

theorem rsv7F : Statement .rsv7F := fun _ => ⟨_, rfl, rfl, rfl⟩

theorem rsv82 : Statement .rsv82 := fun _ => ⟨_, rfl, rfl, rfl⟩

theorem rsv83 : Statement .rsv83 := fun _ => ⟨_, rfl, rfl, rfl⟩

theorem rsv87 : Statement .rsv87 := fun _ => ⟨_, rfl, rfl, rfl⟩

theorem rsv8B : Statement .rsv8B := fun _ => ⟨_, rfl, rfl, rfl⟩

theorem rsv8F : Statement .rsv8F := fun _ => ⟨_, rfl, rfl, rfl⟩

theorem rsv93 : Statement .rsv93 := fun _ => ⟨_, rfl, rfl, rfl⟩

theorem rsv97 : Statement .rsv97 := fun _ => ⟨_, rfl, rfl, rfl⟩

theorem rsv9B : Statement .rsv9B := fun _ => ⟨_, rfl, rfl, rfl⟩

theorem rsv9F : Statement .rsv9F := fun _ => ⟨_, rfl, rfl, rfl⟩

theorem rsvA3 : Statement .rsvA3 := fun _ => ⟨_, rfl, rfl, rfl⟩

theorem rsvA7 : Statement .rsvA7 := fun _ => ⟨_, rfl, rfl, rfl⟩

theorem rsvAB : Statement .rsvAB := fun _ => ⟨_, rfl, rfl, rfl⟩

theorem rsvAF : Statement .rsvAF := fun _ => ⟨_, rfl, rfl, rfl⟩

theorem rsvB3 : Statement .rsvB3 := fun _ => ⟨_, rfl, rfl, rfl⟩

theorem rsvB7 : Statement .rsvB7 := fun _ => ⟨_, rfl, rfl, rfl⟩

theorem rsvBB : Statement .rsvBB := fun _ => ⟨_, rfl, rfl, rfl⟩

theorem rsvBF : Statement .rsvBF := fun _ => ⟨_, rfl, rfl, rfl⟩

theorem rsvC2 : Statement .rsvC2 := fun _ => ⟨_, rfl, rfl, rfl⟩

theorem rsvC3 : Statement .rsvC3 := fun _ => ⟨_, rfl, rfl, rfl⟩

theorem rsvC7 : Statement .rsvC7 := fun _ => ⟨_, rfl, rfl, rfl⟩

theorem rsvCB : Statement .rsvCB := fun _ => ⟨_, rfl, rfl, rfl⟩

theorem rsvCF : Statement .rsvCF := fun _ => ⟨_, rfl, rfl, rfl⟩

theorem rsvD3 : Statement .rsvD3 := fun _ => ⟨_, rfl, rfl, rfl⟩

theorem rsvD4 : Statement .rsvD4 := fun _ => ⟨_, rfl, rfl, rfl⟩

theorem rsvD7 : Statement .rsvD7 := fun _ => ⟨_, rfl, rfl, rfl⟩

theorem rsvDB : Statement .rsvDB := fun _ => ⟨_, rfl, rfl, rfl⟩

theorem rsvDC : Statement .rsvDC := fun _ => ⟨_, rfl, rfl, rfl⟩

theorem rsvDF : Statement .rsvDF := fun _ => ⟨_, rfl, rfl, rfl⟩

theorem rsvE2 : Statement .rsvE2 := fun _ => ⟨_, rfl, rfl, rfl⟩

theorem rsvE3 : Statement .rsvE3 := fun _ => ⟨_, rfl, rfl, rfl⟩

theorem rsvE7 : Statement .rsvE7 := fun _ => ⟨_, rfl, rfl, rfl⟩

theorem rsvEB : Statement .rsvEB := fun _ => ⟨_, rfl, rfl, rfl⟩

theorem rsvEF : Statement .rsvEF := fun _ => ⟨_, rfl, rfl, rfl⟩

theorem rsvF3 : Statement .rsvF3 := fun _ => ⟨_, rfl, rfl, rfl⟩

theorem rsvF4 : Statement .rsvF4 := fun _ => ⟨_, rfl, rfl, rfl⟩

theorem rsvF7 : Statement .rsvF7 := fun _ => ⟨_, rfl, rfl, rfl⟩

theorem rsvFB : Statement .rsvFB := fun _ => ⟨_, rfl, rfl, rfl⟩

theorem rsvFC : Statement .rsvFC := fun _ => ⟨_, rfl, rfl, rfl⟩

theorem rsvFF : Statement .rsvFF := fun _ => ⟨_, rfl, rfl, rfl⟩

end Sys2Proof.Laws.Encoding
end

