-- ==== Sys2Proof/Tests/Slice0.lean ====
section
/-! SUPPORT. Tests. Expected values come from spec/: words from Table 30-3 and Table 47-1, one-step results from the vectors of
spec/95_test_vectors.md (a theorem names its vector). Then, for every statement that has hypotheses, a witness. -/

namespace Sys2Proof.Tests

open Sys2Proof.Machine

/-- The start of the vectors: Bus memory with the given bytes, P = 0x20, CYC = 0, everything else as at reset. -/
def start (pc : Addr) (mem : List (Addr × Byte)) : State :=
  { mem.foldl (fun s c => ramWrite c.1 c.2 s) State.reset with pc := pc, p := 0x20, cyc := 0 }

/-- A, X, Y, SP, P, PC, CYC and some bytes of Bus memory. -/
def seen (obs : List Addr) (s : State) : List Nat :=
  [s.a.toNat, s.x.toNat, s.y.toNat, s.sp.toNat, s.p.toNat, s.pc.toNat, s.cyc] ++ obs.map (fun a => (ramRead a s).toNat)

/-- What is seen after a step; nothing after a stop. -/
def look (obs : List Addr) (o : Host.Outcome State Fault Refusal) : List Nat :=
  match o with
  | .next s => seen obs s
  | .fault _ => []
  | .refused _ => []

/-- The state after a step that goes on. -/
def after? (o : Host.Outcome State Fault Refusal) : Option State :=
  match o with
  | .next s => some s
  | .fault _ => none
  | .refused _ => none

/-! ### Well-formedness -/

theorem test_wf_refuses_loads_stores :
    ([.lda .acc, .lda (.zpy 0x12), .lda (.ind 0x1234), .lda (.iax 0x1234), .ldx .acc, .ldx (.zpx 0x12),
      .ldx (.zpi 0x12), .ldx (.izx 0x12), .ldx (.izy 0x12), .ldx (.abx 0x1234), .ldx (.ind 0x1234),
      .ldx (.iax 0x1234), .ldy .acc, .ldy (.zpy 0x12), .ldy (.zpi 0x12), .ldy (.izx 0x12), .ldy (.izy 0x12),
      .ldy (.aby 0x1234), .ldy (.ind 0x1234), .ldy (.iax 0x1234), .sta .acc, .sta (.imm 0x12),
      .sta (.zpy 0x12), .sta (.ind 0x1234), .sta (.iax 0x1234), .stx .acc, .stx (.imm 0x12),
      .stx (.zpx 0x12), .stx (.zpi 0x12), .stx (.izx 0x12), .stx (.izy 0x12), .stx (.abx 0x1234),
      .stx (.aby 0x1234), .stx (.ind 0x1234), .stx (.iax 0x1234), .sty .acc, .sty (.imm 0x12),
      .sty (.zpy 0x12), .sty (.zpi 0x12), .sty (.izx 0x12), .sty (.izy 0x12), .sty (.abx 0x1234),
      .sty (.aby 0x1234), .sty (.ind 0x1234), .sty (.iax 0x1234), .stz .acc, .stz (.imm 0x12),
      .stz (.zpy 0x12), .stz (.zpi 0x12), .stz (.izx 0x12), .stz (.izy 0x12), .stz (.aby 0x1234),
      .stz (.ind 0x1234), .stz (.iax 0x1234)] :
      List Instr).all (fun i => !i.wf) = true := by
  decide

theorem test_wf_accepts_loads_stores :
    ([.lda (.imm 0x12), .lda (.zp 0x12), .lda (.zpx 0x12), .lda (.zpi 0x12), .lda (.izx 0x12),
      .lda (.izy 0x12), .lda (.abs 0x1234), .lda (.abx 0x1234), .lda (.aby 0x1234), .ldx (.imm 0x12),
      .ldx (.zp 0x12), .ldx (.zpy 0x12), .ldx (.abs 0x1234), .ldx (.aby 0x1234), .ldy (.imm 0x12),
      .ldy (.zp 0x12), .ldy (.zpx 0x12), .ldy (.abs 0x1234), .ldy (.abx 0x1234), .sta (.zp 0x12),
      .sta (.zpx 0x12), .sta (.zpi 0x12), .sta (.izx 0x12), .sta (.izy 0x12), .sta (.abs 0x1234),
      .sta (.abx 0x1234), .sta (.aby 0x1234), .stx (.zp 0x12), .stx (.zpy 0x12), .stx (.abs 0x1234),
      .sty (.zp 0x12), .sty (.zpx 0x12), .sty (.abs 0x1234), .stz (.zp 0x12), .stz (.zpx 0x12),
      .stz (.abs 0x1234), .stz (.abx 0x1234)] :
      List Instr).all (fun i => i.wf) = true := by
  decide

theorem test_wf_refuses_alu :
    ([.ora .acc, .ora (.zpy 0x12), .ora (.ind 0x1234), .ora (.iax 0x1234), .and .acc, .and (.zpy 0x12),
      .and (.ind 0x1234), .and (.iax 0x1234), .eor .acc, .eor (.zpy 0x12), .eor (.ind 0x1234),
      .eor (.iax 0x1234), .adc .acc, .adc (.zpy 0x12), .adc (.ind 0x1234), .adc (.iax 0x1234), .sbc .acc,
      .sbc (.zpy 0x12), .sbc (.ind 0x1234), .sbc (.iax 0x1234)] :
      List Instr).all (fun i => !i.wf) = true := by
  decide

theorem test_wf_accepts_alu :
    ([.ora (.imm 0x12), .ora (.zp 0x12), .ora (.zpx 0x12), .ora (.zpi 0x12), .ora (.izx 0x12),
      .ora (.izy 0x12), .ora (.abs 0x1234), .ora (.abx 0x1234), .ora (.aby 0x1234), .and (.imm 0x12),
      .and (.zp 0x12), .and (.zpx 0x12), .and (.zpi 0x12), .and (.izx 0x12), .and (.izy 0x12),
      .and (.abs 0x1234), .and (.abx 0x1234), .and (.aby 0x1234), .eor (.imm 0x12), .eor (.zp 0x12),
      .eor (.zpx 0x12), .eor (.zpi 0x12), .eor (.izx 0x12), .eor (.izy 0x12), .eor (.abs 0x1234),
      .eor (.abx 0x1234), .eor (.aby 0x1234), .adc (.imm 0x12), .adc (.zp 0x12), .adc (.zpx 0x12),
      .adc (.zpi 0x12), .adc (.izx 0x12), .adc (.izy 0x12), .adc (.abs 0x1234), .adc (.abx 0x1234),
      .adc (.aby 0x1234), .sbc (.imm 0x12), .sbc (.zp 0x12), .sbc (.zpx 0x12), .sbc (.zpi 0x12),
      .sbc (.izx 0x12), .sbc (.izy 0x12), .sbc (.abs 0x1234), .sbc (.abx 0x1234), .sbc (.aby 0x1234)] :
      List Instr).all (fun i => i.wf) = true := by
  decide

theorem test_wf_refuses_bit_tests :
    ([.bit .acc, .bit (.zpy 0x12), .bit (.zpi 0x12), .bit (.izx 0x12), .bit (.izy 0x12), .bit (.aby 0x1234),
      .bit (.ind 0x1234), .bit (.iax 0x1234), .tsb .acc, .tsb (.imm 0x12), .tsb (.zpx 0x12),
      .tsb (.zpy 0x12), .tsb (.zpi 0x12), .tsb (.izx 0x12), .tsb (.izy 0x12), .tsb (.abx 0x1234),
      .tsb (.aby 0x1234), .tsb (.ind 0x1234), .tsb (.iax 0x1234), .trb .acc, .trb (.imm 0x12),
      .trb (.zpx 0x12), .trb (.zpy 0x12), .trb (.zpi 0x12), .trb (.izx 0x12), .trb (.izy 0x12),
      .trb (.abx 0x1234), .trb (.aby 0x1234), .trb (.ind 0x1234), .trb (.iax 0x1234)] :
      List Instr).all (fun i => !i.wf) = true := by
  decide

theorem test_wf_accepts_bit_tests :
    ([.bit (.imm 0x12), .bit (.zp 0x12), .bit (.zpx 0x12), .bit (.abs 0x1234), .bit (.abx 0x1234),
      .tsb (.zp 0x12), .tsb (.abs 0x1234), .trb (.zp 0x12), .trb (.abs 0x1234)] :
      List Instr).all (fun i => i.wf) = true := by
  decide

theorem test_wf_refuses_shifts :
    ([.asl (.imm 0x12), .asl (.zpy 0x12), .asl (.zpi 0x12), .asl (.izx 0x12), .asl (.izy 0x12),
      .asl (.aby 0x1234), .asl (.ind 0x1234), .asl (.iax 0x1234), .lsr (.imm 0x12), .lsr (.zpy 0x12),
      .lsr (.zpi 0x12), .lsr (.izx 0x12), .lsr (.izy 0x12), .lsr (.aby 0x1234), .lsr (.ind 0x1234),
      .lsr (.iax 0x1234), .rol (.imm 0x12), .rol (.zpy 0x12), .rol (.zpi 0x12), .rol (.izx 0x12),
      .rol (.izy 0x12), .rol (.aby 0x1234), .rol (.ind 0x1234), .rol (.iax 0x1234), .ror (.imm 0x12),
      .ror (.zpy 0x12), .ror (.zpi 0x12), .ror (.izx 0x12), .ror (.izy 0x12), .ror (.aby 0x1234),
      .ror (.ind 0x1234), .ror (.iax 0x1234)] :
      List Instr).all (fun i => !i.wf) = true := by
  decide

theorem test_wf_accepts_shifts :
    ([.asl .acc, .asl (.zp 0x12), .asl (.zpx 0x12), .asl (.abs 0x1234), .asl (.abx 0x1234), .lsr .acc,
      .lsr (.zp 0x12), .lsr (.zpx 0x12), .lsr (.abs 0x1234), .lsr (.abx 0x1234), .rol .acc, .rol (.zp 0x12),
      .rol (.zpx 0x12), .rol (.abs 0x1234), .rol (.abx 0x1234), .ror .acc, .ror (.zp 0x12), .ror (.zpx 0x12),
      .ror (.abs 0x1234), .ror (.abx 0x1234)] :
      List Instr).all (fun i => i.wf) = true := by
  decide

theorem test_wf_refuses_compares :
    ([.cmp .acc, .cmp (.zpy 0x12), .cmp (.ind 0x1234), .cmp (.iax 0x1234), .cpx .acc, .cpx (.zpx 0x12),
      .cpx (.zpy 0x12), .cpx (.zpi 0x12), .cpx (.izx 0x12), .cpx (.izy 0x12), .cpx (.abx 0x1234),
      .cpx (.aby 0x1234), .cpx (.ind 0x1234), .cpx (.iax 0x1234), .cpy .acc, .cpy (.zpx 0x12),
      .cpy (.zpy 0x12), .cpy (.zpi 0x12), .cpy (.izx 0x12), .cpy (.izy 0x12), .cpy (.abx 0x1234),
      .cpy (.aby 0x1234), .cpy (.ind 0x1234), .cpy (.iax 0x1234)] :
      List Instr).all (fun i => !i.wf) = true := by
  decide

theorem test_wf_accepts_compares :
    ([.cmp (.imm 0x12), .cmp (.zp 0x12), .cmp (.zpx 0x12), .cmp (.zpi 0x12), .cmp (.izx 0x12),
      .cmp (.izy 0x12), .cmp (.abs 0x1234), .cmp (.abx 0x1234), .cmp (.aby 0x1234), .cpx (.imm 0x12),
      .cpx (.zp 0x12), .cpx (.abs 0x1234), .cpy (.imm 0x12), .cpy (.zp 0x12), .cpy (.abs 0x1234)] :
      List Instr).all (fun i => i.wf) = true := by
  decide

theorem test_wf_refuses_inc_dec :
    ([.inc (.imm 0x12), .inc (.zpy 0x12), .inc (.zpi 0x12), .inc (.izx 0x12), .inc (.izy 0x12),
      .inc (.aby 0x1234), .inc (.ind 0x1234), .inc (.iax 0x1234), .dec (.imm 0x12), .dec (.zpy 0x12),
      .dec (.zpi 0x12), .dec (.izx 0x12), .dec (.izy 0x12), .dec (.aby 0x1234), .dec (.ind 0x1234),
      .dec (.iax 0x1234)] :
      List Instr).all (fun i => !i.wf) = true := by
  decide

theorem test_wf_accepts_inc_dec :
    ([.inc .acc, .inc (.zp 0x12), .inc (.zpx 0x12), .inc (.abs 0x1234), .inc (.abx 0x1234), .dec .acc,
      .dec (.zp 0x12), .dec (.zpx 0x12), .dec (.abs 0x1234), .dec (.abx 0x1234)] :
      List Instr).all (fun i => i.wf) = true := by
  decide

theorem test_wf_refuses_jump :
    ([.jmp .acc, .jmp (.imm 0x12), .jmp (.zp 0x12), .jmp (.zpx 0x12), .jmp (.zpy 0x12), .jmp (.zpi 0x12),
      .jmp (.izx 0x12), .jmp (.izy 0x12), .jmp (.abx 0x1234), .jmp (.aby 0x1234)] :
      List Instr).all (fun i => !i.wf) = true := by
  decide

theorem test_wf_accepts_jump :
    ([.jmp (.abs 0x1234), .jmp (.ind 0x1234), .jmp (.iax 0x1234)] :
      List Instr).all (fun i => i.wf) = true := by
  decide

/-! ### Decoding: every row of Table 30-3, and every reserved opcode of Table 47-1, the operand bytes 0x12, or 0x34 then 0x12 -/

theorem test_decode_loads_stores_1 :
    [(16, 0x12A1), (16, 0x12A5), (16, 0x12A9), (24, 0x1234AD), (16, 0x12B1), (16, 0x12B2), (16, 0x12B5),
      (24, 0x1234B9), (24, 0x1234BD), (16, 0x12A2), (16, 0x12A6), (24, 0x1234AE), (16, 0x12B6), (24, 0x1234BE),
      (16, 0x12A0), (16, 0x12A4), (24, 0x1234AC), (16, 0x12B4), (24, 0x1234BC), (16, 0x1281), (16, 0x1285),
      (24, 0x12348D), (16, 0x1291), (16, 0x1292)].map (fun c => decodeTableWord c.1 c.2) =
      [some (.lda (.izx 0x12)), some (.lda (.zp 0x12)), some (.lda (.imm 0x12)), some (.lda (.abs 0x1234)),
        some (.lda (.izy 0x12)), some (.lda (.zpi 0x12)), some (.lda (.zpx 0x12)), some (.lda (.aby 0x1234)),
        some (.lda (.abx 0x1234)), some (.ldx (.imm 0x12)), some (.ldx (.zp 0x12)), some (.ldx (.abs 0x1234)),
        some (.ldx (.zpy 0x12)), some (.ldx (.aby 0x1234)), some (.ldy (.imm 0x12)), some (.ldy (.zp 0x12)),
        some (.ldy (.abs 0x1234)), some (.ldy (.zpx 0x12)), some (.ldy (.abx 0x1234)), some (.sta (.izx 0x12)),
        some (.sta (.zp 0x12)), some (.sta (.abs 0x1234)), some (.sta (.izy 0x12)), some (.sta (.zpi 0x12))] := by
  decide

theorem test_decode_loads_stores_2 :
    [(16, 0x1295), (24, 0x123499), (24, 0x12349D), (16, 0x1286), (24, 0x12348E), (16, 0x1296), (16, 0x1284),
      (24, 0x12348C), (16, 0x1294), (16, 0x1264), (16, 0x1274), (24, 0x12349C), (24, 0x12349E)].map (fun c => decodeTableWord c.1 c.2) =
      [some (.sta (.zpx 0x12)), some (.sta (.aby 0x1234)), some (.sta (.abx 0x1234)), some (.stx (.zp 0x12)),
        some (.stx (.abs 0x1234)), some (.stx (.zpy 0x12)), some (.sty (.zp 0x12)), some (.sty (.abs 0x1234)),
        some (.sty (.zpx 0x12)), some (.stz (.zp 0x12)), some (.stz (.zpx 0x12)), some (.stz (.abs 0x1234)),
        some (.stz (.abx 0x1234))] := by
  decide

theorem test_decode_alu_1 :
    [(16, 0x1201), (16, 0x1205), (16, 0x1209), (24, 0x12340D), (16, 0x1211), (16, 0x1212), (16, 0x1215),
      (24, 0x123419), (24, 0x12341D), (16, 0x1221), (16, 0x1225), (16, 0x1229), (24, 0x12342D), (16, 0x1231),
      (16, 0x1232), (16, 0x1235), (24, 0x123439), (24, 0x12343D), (16, 0x1241), (16, 0x1245), (16, 0x1249),
      (24, 0x12344D), (16, 0x1251), (16, 0x1252)].map (fun c => decodeTableWord c.1 c.2) =
      [some (.ora (.izx 0x12)), some (.ora (.zp 0x12)), some (.ora (.imm 0x12)), some (.ora (.abs 0x1234)),
        some (.ora (.izy 0x12)), some (.ora (.zpi 0x12)), some (.ora (.zpx 0x12)), some (.ora (.aby 0x1234)),
        some (.ora (.abx 0x1234)), some (.and (.izx 0x12)), some (.and (.zp 0x12)), some (.and (.imm 0x12)),
        some (.and (.abs 0x1234)), some (.and (.izy 0x12)), some (.and (.zpi 0x12)), some (.and (.zpx 0x12)),
        some (.and (.aby 0x1234)), some (.and (.abx 0x1234)), some (.eor (.izx 0x12)), some (.eor (.zp 0x12)),
        some (.eor (.imm 0x12)), some (.eor (.abs 0x1234)), some (.eor (.izy 0x12)), some (.eor (.zpi 0x12))] := by
  decide

theorem test_decode_alu_2 :
    [(16, 0x1255), (24, 0x123459), (24, 0x12345D), (16, 0x1261), (16, 0x1265), (16, 0x1269), (24, 0x12346D),
      (16, 0x1271), (16, 0x1272), (16, 0x1275), (24, 0x123479), (24, 0x12347D), (16, 0x12E1), (16, 0x12E5),
      (16, 0x12E9), (24, 0x1234ED), (16, 0x12F1), (16, 0x12F2), (16, 0x12F5), (24, 0x1234F9), (24, 0x1234FD)].map (fun c => decodeTableWord c.1 c.2) =
      [some (.eor (.zpx 0x12)), some (.eor (.aby 0x1234)), some (.eor (.abx 0x1234)), some (.adc (.izx 0x12)),
        some (.adc (.zp 0x12)), some (.adc (.imm 0x12)), some (.adc (.abs 0x1234)), some (.adc (.izy 0x12)),
        some (.adc (.zpi 0x12)), some (.adc (.zpx 0x12)), some (.adc (.aby 0x1234)), some (.adc (.abx 0x1234)),
        some (.sbc (.izx 0x12)), some (.sbc (.zp 0x12)), some (.sbc (.imm 0x12)), some (.sbc (.abs 0x1234)),
        some (.sbc (.izy 0x12)), some (.sbc (.zpi 0x12)), some (.sbc (.zpx 0x12)), some (.sbc (.aby 0x1234)),
        some (.sbc (.abx 0x1234))] := by
  decide

theorem test_decode_bit_tests :
    [(16, 0x1224), (24, 0x12342C), (16, 0x1234), (24, 0x12343C), (16, 0x1289), (16, 0x1204), (24, 0x12340C),
      (16, 0x1214), (24, 0x12341C)].map (fun c => decodeTableWord c.1 c.2) =
      [some (.bit (.zp 0x12)), some (.bit (.abs 0x1234)), some (.bit (.zpx 0x12)), some (.bit (.abx 0x1234)),
        some (.bit (.imm 0x12)), some (.tsb (.zp 0x12)), some (.tsb (.abs 0x1234)), some (.trb (.zp 0x12)),
        some (.trb (.abs 0x1234))] := by
  decide

theorem test_decode_shifts :
    [(16, 0x1206), (8, 0x0A), (24, 0x12340E), (16, 0x1216), (24, 0x12341E), (16, 0x1246), (8, 0x4A),
      (24, 0x12344E), (16, 0x1256), (24, 0x12345E), (16, 0x1226), (8, 0x2A), (24, 0x12342E), (16, 0x1236),
      (24, 0x12343E), (16, 0x1266), (8, 0x6A), (24, 0x12346E), (16, 0x1276), (24, 0x12347E)].map (fun c => decodeTableWord c.1 c.2) =
      [some (.asl (.zp 0x12)), some (.asl .acc), some (.asl (.abs 0x1234)), some (.asl (.zpx 0x12)),
        some (.asl (.abx 0x1234)), some (.lsr (.zp 0x12)), some (.lsr .acc), some (.lsr (.abs 0x1234)),
        some (.lsr (.zpx 0x12)), some (.lsr (.abx 0x1234)), some (.rol (.zp 0x12)), some (.rol .acc),
        some (.rol (.abs 0x1234)), some (.rol (.zpx 0x12)), some (.rol (.abx 0x1234)), some (.ror (.zp 0x12)),
        some (.ror .acc), some (.ror (.abs 0x1234)), some (.ror (.zpx 0x12)), some (.ror (.abx 0x1234))] := by
  decide

theorem test_decode_compares :
    [(16, 0x12C1), (16, 0x12C5), (16, 0x12C9), (24, 0x1234CD), (16, 0x12D1), (16, 0x12D2), (16, 0x12D5),
      (24, 0x1234D9), (24, 0x1234DD), (16, 0x12E0), (16, 0x12E4), (24, 0x1234EC), (16, 0x12C0), (16, 0x12C4),
      (24, 0x1234CC)].map (fun c => decodeTableWord c.1 c.2) =
      [some (.cmp (.izx 0x12)), some (.cmp (.zp 0x12)), some (.cmp (.imm 0x12)), some (.cmp (.abs 0x1234)),
        some (.cmp (.izy 0x12)), some (.cmp (.zpi 0x12)), some (.cmp (.zpx 0x12)), some (.cmp (.aby 0x1234)),
        some (.cmp (.abx 0x1234)), some (.cpx (.imm 0x12)), some (.cpx (.zp 0x12)), some (.cpx (.abs 0x1234)),
        some (.cpy (.imm 0x12)), some (.cpy (.zp 0x12)), some (.cpy (.abs 0x1234))] := by
  decide

theorem test_decode_inc_dec :
    [(8, 0x1A), (16, 0x12E6), (24, 0x1234EE), (16, 0x12F6), (24, 0x1234FE), (8, 0x3A), (16, 0x12C6),
      (24, 0x1234CE), (16, 0x12D6), (24, 0x1234DE), (8, 0xE8), (8, 0xC8), (8, 0xCA), (8, 0x88)].map (fun c => decodeTableWord c.1 c.2) =
      [some (.inc .acc), some (.inc (.zp 0x12)), some (.inc (.abs 0x1234)), some (.inc (.zpx 0x12)),
        some (.inc (.abx 0x1234)), some (.dec .acc), some (.dec (.zp 0x12)), some (.dec (.abs 0x1234)),
        some (.dec (.zpx 0x12)), some (.dec (.abx 0x1234)), some .inx, some .iny, some .dex, some .dey] := by
  decide

theorem test_decode_branches :
    [(16, 0x1210), (16, 0x1230), (16, 0x1250), (16, 0x1270), (16, 0x1290), (16, 0x12B0), (16, 0x12D0),
      (16, 0x12F0), (16, 0x1280)].map (fun c => decodeTableWord c.1 c.2) =
      [some (.bpl 0x12), some (.bmi 0x12), some (.bvc 0x12), some (.bvs 0x12), some (.bcc 0x12),
        some (.bcs 0x12), some (.bne 0x12), some (.beq 0x12), some (.bra 0x12)] := by
  decide

theorem test_decode_jump :
    [(24, 0x12344C), (24, 0x12346C), (24, 0x12347C)].map (fun c => decodeTableWord c.1 c.2) =
      [some (.jmp (.abs 0x1234)), some (.jmp (.ind 0x1234)), some (.jmp (.iax 0x1234))] := by
  decide

theorem test_decode_stack :
    [(8, 0x48), (8, 0x08), (8, 0xDA), (8, 0x5A), (8, 0x68), (8, 0x28), (8, 0xFA), (8, 0x7A)].map (fun c => decodeTableWord c.1 c.2) =
      [some .pha, some .php, some .phx, some .phy, some .pla, some .plp, some .plx, some .ply] := by
  decide

theorem test_decode_linkage :
    [(24, 0x123420), (8, 0x60), (8, 0x40), (8, 0x00)].map (fun c => decodeTableWord c.1 c.2) =
      [some (.jsr 0x1234), some .rts, some .rti, some .brk] := by
  decide

theorem test_decode_transfers :
    [(8, 0xAA), (8, 0x8A), (8, 0xA8), (8, 0x98), (8, 0xBA), (8, 0x9A)].map (fun c => decodeTableWord c.1 c.2) =
      [some .tax, some .txa, some .tay, some .tya, some .tsx, some .txs] := by
  decide

theorem test_decode_flags_nop :
    [(8, 0x18), (8, 0x38), (8, 0x58), (8, 0x78), (8, 0xD8), (8, 0xF8), (8, 0xB8), (8, 0xEA)].map (fun c => decodeTableWord c.1 c.2) =
      [some .clc, some .sec, some .cli, some .sei, some .cld, some .sed, some .clv, some .nop] := by
  decide

theorem test_decode_reserved_1 :
    [(16, 0x0002), (8, 0x03), (8, 0x07), (8, 0x0B), (8, 0x0F), (8, 0x13), (8, 0x17), (8, 0x1B), (8, 0x1F),
      (16, 0x0022), (8, 0x23), (8, 0x27), (8, 0x2B), (8, 0x2F), (8, 0x33), (8, 0x37), (8, 0x3B), (8, 0x3F),
      (16, 0x0042), (8, 0x43), (16, 0x0044), (8, 0x47), (8, 0x4B), (8, 0x4F), (8, 0x53), (16, 0x0054)].map (fun c => decodeTableWord c.1 c.2) =
      [some .rsv02, some .rsv03, some .rsv07, some .rsv0B, some .rsv0F, some .rsv13, some .rsv17, some .rsv1B,
        some .rsv1F, some .rsv22, some .rsv23, some .rsv27, some .rsv2B, some .rsv2F, some .rsv33, some .rsv37,
        some .rsv3B, some .rsv3F, some .rsv42, some .rsv43, some .rsv44, some .rsv47, some .rsv4B, some .rsv4F,
        some .rsv53, some .rsv54] := by
  decide

theorem test_decode_reserved_2 :
    [(8, 0x57), (8, 0x5B), (24, 0x00005C), (8, 0x5F), (16, 0x0062), (8, 0x63), (8, 0x67), (8, 0x6B), (8, 0x6F),
      (8, 0x73), (8, 0x77), (8, 0x7B), (8, 0x7F), (16, 0x0082), (8, 0x83), (8, 0x87), (8, 0x8B), (8, 0x8F),
      (8, 0x93), (8, 0x97), (8, 0x9B), (8, 0x9F), (8, 0xA3), (8, 0xA7), (8, 0xAB), (8, 0xAF)].map (fun c => decodeTableWord c.1 c.2) =
      [some .rsv57, some .rsv5B, some .rsv5C, some .rsv5F, some .rsv62, some .rsv63, some .rsv67, some .rsv6B,
        some .rsv6F, some .rsv73, some .rsv77, some .rsv7B, some .rsv7F, some .rsv82, some .rsv83, some .rsv87,
        some .rsv8B, some .rsv8F, some .rsv93, some .rsv97, some .rsv9B, some .rsv9F, some .rsvA3, some .rsvA7,
        some .rsvAB, some .rsvAF] := by
  decide

theorem test_decode_reserved_3 :
    [(8, 0xB3), (8, 0xB7), (8, 0xBB), (8, 0xBF), (16, 0x00C2), (8, 0xC3), (8, 0xC7), (8, 0xCB), (8, 0xCF),
      (8, 0xD3), (16, 0x00D4), (8, 0xD7), (8, 0xDB), (24, 0x0000DC), (8, 0xDF), (16, 0x00E2), (8, 0xE3),
      (8, 0xE7), (8, 0xEB), (8, 0xEF), (8, 0xF3), (16, 0x00F4), (8, 0xF7), (8, 0xFB), (24, 0x0000FC), (8, 0xFF)].map (fun c => decodeTableWord c.1 c.2) =
      [some .rsvB3, some .rsvB7, some .rsvBB, some .rsvBF, some .rsvC2, some .rsvC3, some .rsvC7, some .rsvCB,
        some .rsvCF, some .rsvD3, some .rsvD4, some .rsvD7, some .rsvDB, some .rsvDC, some .rsvDF, some .rsvE2,
        some .rsvE3, some .rsvE7, some .rsvEB, some .rsvEF, some .rsvF3, some .rsvF4, some .rsvF7, some .rsvFB,
        some .rsvFC, some .rsvFF] := by
  decide

/-! ### One step (parts 2 of the vectors: V40 to V47) -/

theorem test_lda_V40_5 :
    look [] (step ({ start 0x0200 [(0x0200, 0xBD), (0x0201, 0x01), (0x0202, 0x30), (0x3100, 0x11)] with x := 0xFF })) =
      [0x11, 0xFF, 0x00, 0xFD, 0x20, 0x203, 5] := by
  decide

theorem test_lda_V40_8 :
    look [] (step ({ start 0x0200 [(0x0200, 0xB1), (0x0201, 0xFF), (0x0000, 0x12), (0x00FF, 0xF8), (0x1308, 0xC3)] with y := 0x10 })) =
      [0xC3, 0x00, 0x10, 0xFD, 0xA0, 0x202, 6] := by
  decide

theorem test_ldx_V40_10 :
    look [] (step ({ start 0x0200 [(0x0200, 0xB6), (0x0201, 0xFE), (0x0001, 0x80)] with y := 0x03 })) =
      [0x00, 0x80, 0x03, 0xFD, 0xA0, 0x202, 4] := by
  decide

theorem test_ldy_V40_11 :
    look [] (step ({ start 0x0200 [(0x0200, 0xBC), (0x0201, 0xFF), (0x0202, 0x20), (0x2100, 0x01)] with x := 0x01 })) =
      [0x00, 0x01, 0x01, 0xFD, 0x20, 0x203, 5] := by
  decide

theorem test_sta_V40_12 :
    look [0x3000] (step ({ start 0x0200 [(0x0200, 0x8D), (0x0201, 0x00), (0x0202, 0x30)] with a := 0xAB, p := 0xA3 })) =
      [0xAB, 0x00, 0x00, 0xFD, 0xA3, 0x203, 4, 0xAB] := by
  decide

theorem test_sta_V40_13 :
    look [0x2100] (step ({ start 0x0200 [(0x0200, 0x91), (0x0201, 0x10), (0x0010, 0xFF), (0x0011, 0x20)] with a := 0x55, y := 0x01 })) =
      [0x55, 0x00, 0x01, 0xFD, 0x20, 0x202, 6, 0x55] := by
  decide

theorem test_stx_V40_14 :
    look [0x0001] (step ({ start 0x0200 [(0x0200, 0x96), (0x0201, 0xFF)] with x := 0x33, y := 0x02 })) =
      [0x00, 0x33, 0x02, 0xFD, 0x20, 0x202, 4, 0x33] := by
  decide

theorem test_sty_V40_15 :
    look [0x0080] (step ({ start 0x0200 [(0x0200, 0x94), (0x0201, 0x7F)] with x := 0x01, y := 0x44 })) =
      [0x00, 0x01, 0x44, 0xFD, 0x20, 0x202, 4, 0x44] := by
  decide

theorem test_stz_V40_16 :
    look [0x4100] (step ({ start 0x0200 [(0x0200, 0x9E), (0x0201, 0xFE), (0x0202, 0x40), (0x4100, 0xEE)] with x := 0x02 })) =
      [0x00, 0x02, 0x00, 0xFD, 0x20, 0x203, 5, 0x00] := by
  decide

theorem test_stz_V40_17 :
    look [0x0020] (step (start 0x0200 [(0x0200, 0x64), (0x0201, 0x20), (0x0020, 0xFF)])) =
      [0x00, 0x00, 0x00, 0xFD, 0x20, 0x202, 3, 0x00] := by
  decide

theorem test_ora_V41_1 :
    look [] (step ({ start 0x0200 [(0x0200, 0x09), (0x0201, 0x0F)] with a := 0xF0 })) =
      [0xFF, 0x00, 0x00, 0xFD, 0xA0, 0x202, 2] := by
  decide

theorem test_and_V41_2 :
    look [] (step ({ start 0x0200 [(0x0200, 0x29), (0x0201, 0x0F)] with a := 0xF0 })) =
      [0x00, 0x00, 0x00, 0xFD, 0x22, 0x202, 2] := by
  decide

theorem test_eor_V41_3 :
    look [] (step ({ start 0x0200 [(0x0200, 0x49), (0x0201, 0xFF)] with a := 0xFF })) =
      [0x00, 0x00, 0x00, 0xFD, 0x22, 0x202, 2] := by
  decide

theorem test_adc_V41_7 :
    look [] (step ({ start 0x0200 [(0x0200, 0x69), (0x0201, 0x00)] with a := 0x7F, p := 0x21 })) =
      [0x80, 0x00, 0x00, 0xFD, 0xE0, 0x202, 2] := by
  decide

theorem test_adc_V41_13 :
    look [] (step ({ start 0x0200 [(0x0200, 0x69), (0x0201, 0x46)] with a := 0x58, p := 0x28 })) =
      [0x04, 0x00, 0x00, 0xFD, 0x69, 0x202, 3] := by
  decide

theorem test_sbc_V41_11 :
    look [] (step ({ start 0x0200 [(0x0200, 0xE9), (0x0201, 0x01)] with a := 0x80, p := 0x21 })) =
      [0x7F, 0x00, 0x00, 0xFD, 0x61, 0x202, 2] := by
  decide

theorem test_sbc_V41_23 :
    look [] (step ({ start 0x0200 [(0x0200, 0xE9), (0x0201, 0x21)] with a := 0x12, p := 0x29 })) =
      [0x91, 0x00, 0x00, 0xFD, 0xA8, 0x202, 3] := by
  decide

theorem test_bit_V41_26 :
    look [] (step ({ start 0x0200 [(0x0200, 0x24), (0x0201, 0x30), (0x0030, 0xC0)] with a := 0x0F })) =
      [0x0F, 0x00, 0x00, 0xFD, 0xE2, 0x202, 3] := by
  decide

theorem test_bit_V41_27 :
    look [] (step ({ start 0x0200 [(0x0200, 0x89), (0x0201, 0x00)] with a := 0xFF, p := 0xE0 })) =
      [0xFF, 0x00, 0x00, 0xFD, 0xE2, 0x202, 2] := by
  decide

theorem test_tsb_V41_29 :
    look [0x0030] (step ({ start 0x0200 [(0x0200, 0x04), (0x0201, 0x30), (0x0030, 0xF0)] with a := 0x0F })) =
      [0x0F, 0x00, 0x00, 0xFD, 0x22, 0x202, 5, 0xFF] := by
  decide

theorem test_trb_V41_30 :
    look [0x0030] (step ({ start 0x0200 [(0x0200, 0x14), (0x0201, 0x30), (0x0030, 0xFF)] with a := 0x0F })) =
      [0x0F, 0x00, 0x00, 0xFD, 0x20, 0x202, 5, 0xF0] := by
  decide

theorem test_trb_V41_31 :
    look [] (step ({ start 0x0200 [(0x0200, 0x1C), (0x0201, 0x00), (0x0202, 0x30), (0x3000, 0x5A)] with a := 0xA5 })) =
      [0xA5, 0x00, 0x00, 0xFD, 0x22, 0x203, 6] := by
  decide

theorem test_asl_V42_2 :
    look [] (step ({ start 0x0200 [(0x0200, 0x0A)] with a := 0x41, p := 0x21 })) =
      [0x82, 0x00, 0x00, 0xFD, 0xA0, 0x201, 2] := by
  decide

theorem test_asl_V42_9 :
    look [0x0010] (step (start 0x0200 [(0x0200, 0x06), (0x0201, 0x10), (0x0010, 0xC0)])) =
      [0x00, 0x00, 0x00, 0xFD, 0xA1, 0x202, 5, 0x80] := by
  decide

theorem test_lsr_V42_4 :
    look [] (step ({ start 0x0200 [(0x0200, 0x4A)] with a := 0x80, p := 0xA1 })) =
      [0x40, 0x00, 0x00, 0xFD, 0x20, 0x201, 2] := by
  decide

theorem test_lsr_V42_10 :
    look [0x3100] (step ({ start 0x0200 [(0x0200, 0x5E), (0x0201, 0xFF), (0x0202, 0x30), (0x3100, 0x03)] with x := 0x01 })) =
      [0x00, 0x01, 0x00, 0xFD, 0x21, 0x203, 7, 0x01] := by
  decide

theorem test_rol_V42_6 :
    look [] (step ({ start 0x0200 [(0x0200, 0x2A)] with p := 0x21 })) =
      [0x01, 0x00, 0x00, 0xFD, 0x20, 0x201, 2] := by
  decide

theorem test_rol_V42_11 :
    look [0x0010] (step ({ start 0x0200 [(0x0200, 0x26), (0x0201, 0x10), (0x0010, 0x7F)] with p := 0x21 })) =
      [0x00, 0x00, 0x00, 0xFD, 0xA0, 0x202, 5, 0xFF] := by
  decide

theorem test_ror_V42_8 :
    look [] (step ({ start 0x0200 [(0x0200, 0x6A)] with a := 0x01 })) =
      [0x00, 0x00, 0x00, 0xFD, 0x23, 0x201, 2] := by
  decide

theorem test_ror_V42_12 :
    look [0x0008] (step ({ start 0x0200 [(0x0200, 0x76), (0x0201, 0xF8), (0x0008, 0x00)] with x := 0x10, p := 0x21 })) =
      [0x00, 0x10, 0x00, 0xFD, 0xA0, 0x202, 6, 0x80] := by
  decide

theorem test_cmp_V43_3 :
    look [] (step ({ start 0x0200 [(0x0200, 0xC9), (0x0201, 0x01)] with a := 0x80 })) =
      [0x80, 0x00, 0x00, 0xFD, 0x21, 0x202, 2] := by
  decide

theorem test_cmp_V43_4 :
    look [] (step ({ start 0x0200 [(0x0200, 0xC9), (0x0201, 0xFF)] with p := 0x68 })) =
      [0x00, 0x00, 0x00, 0xFD, 0x68, 0x202, 2] := by
  decide

theorem test_cpx_V43_5 :
    look [] (step ({ start 0x0200 [(0x0200, 0xE0), (0x0201, 0x0F)] with x := 0x10 })) =
      [0x00, 0x10, 0x00, 0xFD, 0x21, 0x202, 2] := by
  decide

theorem test_cpy_V43_6 :
    look [] (step (start 0x0200 [(0x0200, 0xC4), (0x0201, 0x20), (0x0020, 0x01)])) =
      [0x00, 0x00, 0x00, 0xFD, 0xA0, 0x202, 3] := by
  decide

theorem test_inc_V43_9 :
    look [0x0010] (step (start 0x0200 [(0x0200, 0xE6), (0x0201, 0x10), (0x0010, 0x7F)])) =
      [0x00, 0x00, 0x00, 0xFD, 0xA0, 0x202, 5, 0x80] := by
  decide

theorem test_dec_V43_10 :
    look [0x3100] (step ({ start 0x0200 [(0x0200, 0xDE), (0x0201, 0xFF), (0x0202, 0x30), (0x3100, 0x01)] with x := 0x01 })) =
      [0x00, 0x01, 0x00, 0xFD, 0x22, 0x203, 7, 0x00] := by
  decide

theorem test_inx_V43_11 :
    look [] (step ({ start 0x0200 [(0x0200, 0xE8)] with x := 0xFF })) =
      [0x00, 0x00, 0x00, 0xFD, 0x22, 0x201, 2] := by
  decide

theorem test_iny_V43_12 :
    look [] (step ({ start 0x0200 [(0x0200, 0xC8)] with y := 0x7F })) =
      [0x00, 0x00, 0x80, 0xFD, 0xA0, 0x201, 2] := by
  decide

theorem test_dex_V43_13 :
    look [] (step (start 0x0200 [(0x0200, 0xCA)])) =
      [0x00, 0xFF, 0x00, 0xFD, 0xA0, 0x201, 2] := by
  decide

theorem test_dey_V43_14 :
    look [] (step ({ start 0x0200 [(0x0200, 0x88)] with y := 0x01 })) =
      [0x00, 0x00, 0x00, 0xFD, 0x22, 0x201, 2] := by
  decide

theorem test_bpl_V44_1b :
    look [] (step ({ start 0x1000 [(0x1000, 0x10), (0x1001, 0x10)] with p := 0xA0 })) =
      [0x00, 0x00, 0x00, 0xFD, 0xA0, 0x1002, 2] := by
  decide

theorem test_bpl_V44_1c :
    look [] (step (start 0x10F0 [(0x10F0, 0x10), (0x10F1, 0x10)])) =
      [0x00, 0x00, 0x00, 0xFD, 0x20, 0x1102, 4] := by
  decide

theorem test_bmi_V44_2b :
    look [] (step (start 0x1000 [(0x1000, 0x30), (0x1001, 0x10)])) =
      [0x00, 0x00, 0x00, 0xFD, 0x20, 0x1002, 2] := by
  decide

theorem test_bmi_V44_2c :
    look [] (step ({ start 0x10F0 [(0x10F0, 0x30), (0x10F1, 0x10)] with p := 0xA0 })) =
      [0x00, 0x00, 0x00, 0xFD, 0xA0, 0x1102, 4] := by
  decide

theorem test_bvc_V44_3b :
    look [] (step ({ start 0x1000 [(0x1000, 0x50), (0x1001, 0x10)] with p := 0x60 })) =
      [0x00, 0x00, 0x00, 0xFD, 0x60, 0x1002, 2] := by
  decide

theorem test_bvc_V44_3c :
    look [] (step (start 0x10F0 [(0x10F0, 0x50), (0x10F1, 0x10)])) =
      [0x00, 0x00, 0x00, 0xFD, 0x20, 0x1102, 4] := by
  decide

theorem test_bvs_V44_4b :
    look [] (step (start 0x1000 [(0x1000, 0x70), (0x1001, 0x10)])) =
      [0x00, 0x00, 0x00, 0xFD, 0x20, 0x1002, 2] := by
  decide

theorem test_bvs_V44_4c :
    look [] (step ({ start 0x10F0 [(0x10F0, 0x70), (0x10F1, 0x10)] with p := 0x60 })) =
      [0x00, 0x00, 0x00, 0xFD, 0x60, 0x1102, 4] := by
  decide

theorem test_bcc_V44_5b :
    look [] (step ({ start 0x1000 [(0x1000, 0x90), (0x1001, 0x10)] with p := 0x21 })) =
      [0x00, 0x00, 0x00, 0xFD, 0x21, 0x1002, 2] := by
  decide

theorem test_bcc_V44_5c :
    look [] (step (start 0x10F0 [(0x10F0, 0x90), (0x10F1, 0x10)])) =
      [0x00, 0x00, 0x00, 0xFD, 0x20, 0x1102, 4] := by
  decide

theorem test_bcs_V44_6b :
    look [] (step (start 0x1000 [(0x1000, 0xB0), (0x1001, 0x10)])) =
      [0x00, 0x00, 0x00, 0xFD, 0x20, 0x1002, 2] := by
  decide

theorem test_bcs_V44_6c :
    look [] (step ({ start 0x10F0 [(0x10F0, 0xB0), (0x10F1, 0x10)] with p := 0x21 })) =
      [0x00, 0x00, 0x00, 0xFD, 0x21, 0x1102, 4] := by
  decide

theorem test_bne_V44_7b :
    look [] (step ({ start 0x1000 [(0x1000, 0xD0), (0x1001, 0x10)] with p := 0x22 })) =
      [0x00, 0x00, 0x00, 0xFD, 0x22, 0x1002, 2] := by
  decide

theorem test_bne_V44_7c :
    look [] (step (start 0x10F0 [(0x10F0, 0xD0), (0x10F1, 0x10)])) =
      [0x00, 0x00, 0x00, 0xFD, 0x20, 0x1102, 4] := by
  decide

theorem test_beq_V44_8b :
    look [] (step (start 0x1000 [(0x1000, 0xF0), (0x1001, 0x10)])) =
      [0x00, 0x00, 0x00, 0xFD, 0x20, 0x1002, 2] := by
  decide

theorem test_beq_V44_8c :
    look [] (step ({ start 0x10F0 [(0x10F0, 0xF0), (0x10F1, 0x10)] with p := 0x22 })) =
      [0x00, 0x00, 0x00, 0xFD, 0x22, 0x1102, 4] := by
  decide

theorem test_bra_V44_9d :
    look [] (step (start 0x1000 [(0x1000, 0x80), (0x1001, 0xFE)])) =
      [0x00, 0x00, 0x00, 0xFD, 0x20, 0x1000, 3] := by
  decide

theorem test_bra_V44_9g :
    look [] (step (start 0x0000 [(0x0000, 0x80), (0x0001, 0xFD)])) =
      [0x00, 0x00, 0x00, 0xFD, 0x20, 0xFFFF, 4] := by
  decide

theorem test_jmp_V44_11 :
    look [] (step (start 0x0200 [(0x0200, 0x6C), (0x0201, 0xFF), (0x0202, 0x10), (0x1000, 0x99), (0x10FF, 0x78), (0x1100, 0x56)])) =
      [0x00, 0x00, 0x00, 0xFD, 0x20, 0x5678, 6] := by
  decide

theorem test_jmp_V44_12 :
    look [] (step ({ start 0x0200 [(0x0200, 0x7C), (0x0201, 0xFE), (0x0202, 0x30), (0x3100, 0xCD), (0x3101, 0xAB)] with x := 0x02 })) =
      [0x00, 0x02, 0x00, 0xFD, 0x20, 0xABCD, 6] := by
  decide

theorem test_pha_V45_1 :
    look [0x01FD] (step ({ start 0x0200 [(0x0200, 0x48)] with a := 0x42 })) =
      [0x42, 0x00, 0x00, 0xFC, 0x20, 0x201, 3, 0x42] := by
  decide

theorem test_php_V45_2 :
    look [0x01FF] (step ({ start 0x0200 [(0x0200, 0x08)] with sp := 0xFF, p := 0x81 })) =
      [0x00, 0x00, 0x00, 0xFE, 0x81, 0x201, 3, 0xA1] := by
  decide

theorem test_php_V45_3 :
    look [0x0100] (step ({ start 0x0200 [(0x0200, 0x08)] with sp := 0x00, p := 0x10 })) =
      [0x00, 0x00, 0x00, 0xFF, 0x10, 0x201, 3, 0x30] := by
  decide

theorem test_phx_V45_4 :
    look [0x0100] (step ({ start 0x0200 [(0x0200, 0xDA)] with x := 0x10, sp := 0x00 })) =
      [0x00, 0x10, 0x00, 0xFF, 0x20, 0x201, 3, 0x10] := by
  decide

theorem test_phy_V45_5 :
    look [0x01FD] (step ({ start 0x0200 [(0x0200, 0x5A)] with y := 0x20 })) =
      [0x00, 0x00, 0x20, 0xFC, 0x20, 0x201, 3, 0x20] := by
  decide

theorem test_pla_V45_6 :
    look [] (step ({ start 0x0200 [(0x0200, 0x68), (0x0100, 0x80)] with sp := 0xFF })) =
      [0x80, 0x00, 0x00, 0x00, 0xA0, 0x201, 4] := by
  decide

theorem test_plp_V45_7 :
    look [] (step ({ start 0x0200 [(0x0200, 0x28), (0x01FD, 0xFF)] with sp := 0xFC })) =
      [0x00, 0x00, 0x00, 0xFD, 0xFF, 0x201, 4] := by
  decide

theorem test_plp_V45_8 :
    look [] (step ({ start 0x0200 [(0x0200, 0x28), (0x01FD, 0x00)] with sp := 0xFC, p := 0xFF })) =
      [0x00, 0x00, 0x00, 0xFD, 0x00, 0x201, 4] := by
  decide

theorem test_plx_V45_9 :
    look [] (step ({ start 0x0200 [(0x0200, 0xFA), (0x01FD, 0x00)] with sp := 0xFC })) =
      [0x00, 0x00, 0x00, 0xFD, 0x22, 0x201, 4] := by
  decide

theorem test_ply_V45_10 :
    look [] (step ({ start 0x0200 [(0x0200, 0x7A), (0x01FF, 0x01)] with sp := 0xFE })) =
      [0x00, 0x00, 0x01, 0xFF, 0x20, 0x201, 4] := by
  decide

theorem test_jsr_V46_2 :
    look [0x0100] (step ({ start 0x80FE [(0x80FE, 0x20), (0x80FF, 0x00), (0x8100, 0x90)] with sp := 0x00 })) =
      [0x00, 0x00, 0x00, 0xFE, 0x20, 0x9000, 6, 0x81] := by
  decide

theorem test_rts_V46_4 :
    look [] (step ({ start 0x0200 [(0x0200, 0x60), (0x01FC, 0xFF), (0x01FD, 0xFF)] with sp := 0xFB })) =
      [0x00, 0x00, 0x00, 0xFD, 0x20, 0x00, 6] := by
  decide

theorem test_rti_V46_5 :
    look [] (step ({ start 0x0200 [(0x0200, 0x40), (0x01FB, 0xF1), (0x01FC, 0x05), (0x01FD, 0x80)] with sp := 0xFA, p := 0x24 })) =
      [0x00, 0x00, 0x00, 0xFD, 0xC1, 0x8005, 6] := by
  decide

theorem test_rti_V46_6 :
    look [] (step ({ start 0x0200 [(0x0200, 0x40), (0x0100, 0x00), (0x0101, 0x02), (0x01FF, 0x30)] with sp := 0xFE })) =
      [0x00, 0x00, 0x00, 0x01, 0x00, 0x200, 6] := by
  decide

theorem test_brk_V46_7 :
    look [0x01FD, 0x01FE, 0x01FF] (step ({ start 0x8000 [(0x8000, 0x00), (0x8001, 0xEA), (0xFFFE, 0x00), (0xFFFF, 0x90)] with sp := 0xFF, p := 0x00 })) =
      [0x00, 0x00, 0x00, 0xFC, 0x34, 0x9000, 7, 0x30, 0x02, 0x80] := by
  decide

theorem test_brk_V46_8 :
    look [0x0100, 0x0101, 0x01FF] (step ({ start 0x12FF [(0x12FF, 0x00), (0xFFFE, 0x34), (0xFFFF, 0x12)] with sp := 0x01, p := 0xEF })) =
      [0x00, 0x00, 0x00, 0xFE, 0xFF, 0x1234, 7, 0x01, 0x13, 0xFF] := by
  decide

theorem test_tax_V47_1 :
    look [] (step ({ start 0x0200 [(0x0200, 0xAA)] with a := 0x80 })) =
      [0x80, 0x80, 0x00, 0xFD, 0xA0, 0x201, 2] := by
  decide

theorem test_txa_V47_2 :
    look [] (step ({ start 0x0200 [(0x0200, 0x8A)] with a := 0x55 })) =
      [0x00, 0x00, 0x00, 0xFD, 0x22, 0x201, 2] := by
  decide

theorem test_tay_V47_3 :
    look [] (step ({ start 0x0200 [(0x0200, 0xA8)] with a := 0x01 })) =
      [0x01, 0x00, 0x01, 0xFD, 0x20, 0x201, 2] := by
  decide

theorem test_tya_V47_4 :
    look [] (step ({ start 0x0200 [(0x0200, 0x98)] with y := 0xFF })) =
      [0xFF, 0x00, 0xFF, 0xFD, 0xA0, 0x201, 2] := by
  decide

theorem test_tsx_V47_5 :
    look [] (step ({ start 0x0200 [(0x0200, 0xBA)] with sp := 0x00 })) =
      [0x00, 0x00, 0x00, 0x00, 0x22, 0x201, 2] := by
  decide

theorem test_txs_V47_6 :
    look [] (step ({ start 0x0200 [(0x0200, 0x9A)] with x := 0x80, p := 0x22 })) =
      [0x00, 0x80, 0x00, 0x80, 0x22, 0x201, 2] := by
  decide

theorem test_clc_V47_7 :
    look [] (step ({ start 0x0200 [(0x0200, 0x18)] with p := 0xFF })) =
      [0x00, 0x00, 0x00, 0xFD, 0xFE, 0x201, 2] := by
  decide

theorem test_sec_V47_8 :
    look [] (step ({ start 0x0200 [(0x0200, 0x38)] with p := 0x00 })) =
      [0x00, 0x00, 0x00, 0xFD, 0x01, 0x201, 2] := by
  decide

theorem test_cli_V47_9 :
    look [] (step ({ start 0x0200 [(0x0200, 0x58)] with p := 0xFF })) =
      [0x00, 0x00, 0x00, 0xFD, 0xFB, 0x201, 2] := by
  decide

theorem test_sei_V47_10 :
    look [] (step ({ start 0x0200 [(0x0200, 0x78)] with p := 0x00 })) =
      [0x00, 0x00, 0x00, 0xFD, 0x04, 0x201, 2] := by
  decide

theorem test_cld_V47_11 :
    look [] (step ({ start 0x0200 [(0x0200, 0xD8)] with p := 0xFF })) =
      [0x00, 0x00, 0x00, 0xFD, 0xF7, 0x201, 2] := by
  decide

theorem test_sed_V47_12 :
    look [] (step ({ start 0x0200 [(0x0200, 0xF8)] with p := 0x00 })) =
      [0x00, 0x00, 0x00, 0xFD, 0x08, 0x201, 2] := by
  decide

theorem test_clv_V47_13 :
    look [] (step ({ start 0x0200 [(0x0200, 0xB8)] with p := 0xFF })) =
      [0x00, 0x00, 0x00, 0xFD, 0xBF, 0x201, 2] := by
  decide

theorem test_nop_V47_14 :
    look [] (step ({ start 0x0200 [(0x0200, 0xEA)] with p := 0xFF })) =
      [0x00, 0x00, 0x00, 0xFD, 0xFF, 0x201, 2] := by
  decide

theorem test_rsv03_V47_15 :
    look [] (step (start 0x0200 [(0x0200, 0x03)])) =
      [0x00, 0x00, 0x00, 0xFD, 0x20, 0x201, 1] := by
  decide

theorem test_rsv02_V47_16 :
    look [] (step (start 0x0200 [(0x0200, 0x02), (0x0201, 0xFF)])) =
      [0x00, 0x00, 0x00, 0xFD, 0x20, 0x202, 2] := by
  decide

theorem test_rsv44_V47_17 :
    look [] (step (start 0x0200 [(0x0200, 0x44), (0x0201, 0x10)])) =
      [0x00, 0x00, 0x00, 0xFD, 0x20, 0x202, 3] := by
  decide

theorem test_rsv54_V47_18 :
    look [] (step (start 0x0200 [(0x0200, 0x54), (0x0201, 0x10)])) =
      [0x00, 0x00, 0x00, 0xFD, 0x20, 0x202, 4] := by
  decide

theorem test_rsv5c_V47_19 :
    look [] (step (start 0x0200 [(0x0200, 0x5C), (0x0201, 0x00), (0x0202, 0x7F)])) =
      [0x00, 0x00, 0x00, 0xFD, 0x20, 0x203, 8] := by
  decide

theorem test_rsvdc_V47_20 :
    look [] (step (start 0x0200 [(0x0200, 0xDC), (0x0201, 0x10), (0x0202, 0x7F)])) =
      [0x00, 0x00, 0x00, 0xFD, 0x20, 0x203, 4] := by
  decide

theorem test_rsvcb_V47_21 :
    look [] (step ({ start 0x0200 [(0x0200, 0xCB)] with p := 0xFF })) =
      [0x00, 0x00, 0x00, 0xFD, 0xFF, 0x201, 1] := by
  decide

theorem test_rsv0f_V47_22 :
    look [] (step (start 0x0200 [(0x0200, 0x0F), (0x0201, 0x10), (0x0202, 0x05)])) =
      [0x00, 0x00, 0x00, 0xFD, 0x20, 0x201, 1] := by
  decide

theorem test_rsvfc_V47_23 :
    look [] (step (start 0xFFFE [(0xFFFE, 0xFC), (0xFFFF, 0x00), (0x0000, 0x00)])) =
      [0x00, 0x00, 0x00, 0xFD, 0x20, 0x01, 4] := by
  decide

/-! ### The VIA (spec/95_test_vectors.md part 3) -/

/-- IFR as a read of offset 0xD gives it. -/
def ifr (c : ViaId) (s : State) : Byte := (viaRead c 0xD s).1

/-- Instance 1 with control line 1's cause enabled. -/
def enabled1 : State := viaWrite .via1 0xE 0x82 State.reset

/-- V48-5 up to the read. -/
def latched1 : State :=
  assertCl1 .via1 (envMove (.setPin .via1 .p1 0x3C) (viaWrite .via1 1 0xA5 (viaWrite .via1 3 0xF0 enabled1)))

theorem test_V48_2_enable_register :
    (viaWrite .via1 0xE 0xFF State.reset).via1.ier = 0x7F ∧
      (viaWrite .via1 0xE 0x7D (viaWrite .via1 0xE 0xFF State.reset)).via1.ier = 0x02 ∧
      (viaRead .via1 0xE enabled1).1 = 0x82 := by
  decide

theorem test_V48_3_disabled_cause : assertCl1 .via1 State.reset = State.reset := by decide

theorem test_V48_4_other_edge :
    assertCl1 .via1 (viaWrite .via1 0xC 0x01 enabled1) = viaWrite .via1 0xC 0x01 enabled1 := by
  decide

theorem test_V48_5_latch_and_read :
    latched1.via1.ir1 = 0xAC ∧ ifr .via1 latched1 = 0x82 ∧ latched1.irqN = false ∧ (viaRead .via1 1 latched1).1 = 0xAC ∧
      (viaRead .via1 1 latched1).2.via1.ir1 = 0x00 ∧ ifr .via1 (viaRead .via1 1 latched1).2 = 0x00 := by
  decide

theorem test_V48_6_flag_written_one_clears :
    ifr .via2 (viaWrite .via2 0xD 0x02 (assertCl1 .via2 (viaWrite .via2 0xE 0x82 State.reset))) = 0x00 := by
  decide

theorem test_V48_9_one_cause_cleared :
    (let s := State.reset.setVia .via1 { Via.powerOn with ifr := 0x12, ier := 0x12 }
     (ifr .via1 (viaRead .via1 1 s).2, (viaRead .via1 1 s).2.irqN, ifr .via1 (viaRead .via1 0 (viaRead .via1 1 s).2).2)) =
      (0x90, false, 0x00) := by
  decide

theorem test_V48_13_store_in_window :
    (after? (step { start 0x0200 [(0x0200, 0x8D), (0x0201, 0x10), (0x0202, 0x7F)] with a := 0x55 })).map
      (fun t => (t.via2.or0, ramRead 0x7F10 t, t.sc.phase)) = some (0x55, 0x00, .byte0) := by
  decide

theorem test_V48_17_inc_of_a_port :
    (after? (step { start 0x0200 [(0x0200, 0xEE), (0x0201, 0x01), (0x0202, 0x7F)] with
      via1 := { Via.powerOn with ir1 := 0x41, ifr := 0x02, ier := 0x02 } })).map
      (fun t => (t.via1.ir1, t.via1.or1, ifr .via1 t, t.p, t.cyc)) = some (0x00, 0x42, 0x00, 0x20, 6) := by
  decide

/-! ### The storage controller (part 4) -/

/-- DSR, AR and OLR with their flags. -/
def latches (s : State) : List (Nat × Bool) :=
  [(s.sc.dsr.toNat, s.sc.dsrSet), (s.sc.ar.toNat, s.sc.arSet), (s.sc.olr.toNat, s.sc.olrSet)]

theorem test_V49_1_receive :
    (let s := feedBytes .via2 .p1 [0x00, 0x00, 0x80, 0x00, 0x00, 0x80, 0x05, 0x00, 0x80]
      (viaWrite .via2 0xE 0x82 (start 0 [(0, 0x10), (1, 0x11), (2, 0x12), (3, 0x13), (4, 0x14)]))
     ([0, 1, 2, 3, 4, 5].map s.store.read, latches s, ifr .via2 s)) =
      ([0x10, 0x11, 0x12, 0x13, 0x14, 0x00], [(0, false), (0, false), (0, false)], 0x82) := by
  decide

theorem test_V49_4_wide_latch :
    (let s := feedBytes .via2 .p1 [0x34, 0x12, 0xC0, 0xFF, 0xFF, 0xBF] State.reset
     (latches s, s.sc.dir)) = ([(0x1234, true), (0x3FFFFF, true), (0, false)], .receive) := by
  decide

theorem test_V49_6_no_commit :
    (let s := feedBytes .via2 .p1 [0x01, 0x00, 0x00] State.reset
     (s.sc.scratch, latches (feedBytes .via2 .p1 [0x02, 0x00, 0x80] s))) =
      (0x000001, [(0x0003, true), (0, false), (0, false)]) := by
  decide

theorem test_V49_7_both_addresses_wrap :
    (let s := feedBytes .via2 .p1 [0xFE, 0xFF, 0x80, 0xFF, 0xFF, 0xBF, 0x03, 0x00, 0x80]
      (start 0 [(0xFFFE, 0xAA), (0xFFFF, 0xBB), (0x0000, 0xCC)])
     [0x3FFFFF, 0, 1].map s.store.read) = [0xAA, 0xBB, 0xCC] := by
  decide

/-- V49-8 after the third commit. -/
def inFlight : State :=
  feedBytes .via3 .p1 [0x00, 0x03, 0x80, 0x00, 0x01, 0x80, 0x04, 0x00, 0x80]
    (viaWrite .via3 0xE 0x82 (start 0x0200 [(0x0300, 0xA0), (0x0301, 0xA1), (0x0302, 0xA2), (0x0303, 0xA3)]))

theorem test_V49_8_asynchronous_receive :
    (inFlight.sc.busy, inFlight.sc.comp, ifr .via3 inFlight, inFlight.store) = (true, .via3, 0x00, []) ∧
      (let s := dmaSteps 5 inFlight
       ([0x100, 0x101, 0x102, 0x103].map s.store.read, s.sc.busy, ifr .via3 s)) =
        ([0xA0, 0xA1, 0xA2, 0xA3], false, 0x82) := by
  decide

theorem test_V49_9_fourth_commit :
    (let s := feedBytes .via3 .p1 [0x09, 0x00, 0x80] inFlight
     (latches s, s.sc.scratch, s.sc.busy)) = ([(0x0300, true), (0x0100, true), (4, true)], 0, true) := by
  decide

theorem test_V49_13_send_under_a_window :
    (let s := feedBytes .via2 .p1 [0x10, 0x7F, 0xC0, 0x00, 0x00, 0xC0, 0x02, 0x00, 0xC0]
      { State.reset with store := [(0, 0x11), (1, 0x22)] }
     (ramRead 0x7F10 s, ramRead 0x7F11 s, s.via1, s.sc.phase)) = (0x11, 0x22, Via.powerOn, .byte0) := by
  decide

/-! ### Interrupts and reset (part 5) -/

/-- The start of V60-1 to V60-5, with other bytes. -/
def atBoundary (mem : List (Addr × Byte)) : State :=
  { start 0x8002 ([(0x8002, 0xEA), (0xFFFF, 0x90), (0xFFFB, 0xA0)] ++ mem) with sp := 0xFF }

/-- The IRQ pending on instance 1. -/
def pending (s : State) : State := s.setVia .via1 { Via.powerOn with ier := 0x02, ifr := 0x02 }

theorem test_V60_1_irq_entry :
    look [0x01FF, 0x01FE, 0x01FD] (step { pending (atBoundary []) with p := 0x21 }) =
      [0, 0, 0, 0xFC, 0x25, 0x9000, 9, 0x80, 0x03, 0x21] := by
  decide

theorem test_V60_3_masked :
    look [0x01FF] (step { pending (atBoundary []) with p := 0x24 }) = [0, 0, 0, 0xFF, 0x24, 0x8003, 2, 0x00] := by
  decide

theorem test_V60_6_nmi_wins :
    look [0x01FF, 0x01FE, 0x01FD] (step { pending (atBoundary []) with nmiLatch := true }) =
      [0, 0, 0, 0xFC, 0x24, 0xA000, 9, 0x80, 0x03, 0x20] := by
  decide

theorem test_V60_7_brk_then_nmi :
    look [0x01FD, 0x01FC, 0x01FB, 0x01FA] (step { atBoundary [(0x8000, 0x00)] with pc := 0x8000, nmiLatch := true }) =
      [0, 0, 0, 0xF9, 0x34, 0xA000, 14, 0x30, 0x90, 0x00, 0x24] := by
  decide

theorem test_V60_8_cli_then_entry :
    look [0x01FE, 0x01FD] (step { pending (atBoundary [(0x8000, 0x58)]) with pc := 0x8000, p := 0x24 }) =
      [0, 0, 0, 0xFC, 0x24, 0x9000, 9, 0x01, 0x20] := by
  decide

/-- V70-1 before the step. -/
def inReset : State :=
  { start 0x1234 [(0x0010, 0x01), (0x7FFF, 0x02), (0x8000, 0x03), (0xFFFD, 0x80)] with
    a := 0x12, x := 0x34, y := 0x56, sp := 0x10, p := 0xCB, nmiLatch := true, lines := ⟨true, true, false, true⟩ }

theorem test_V70_1_reset :
    look [0x0010, 0x7FFF, 0x8000, 0xFFFD] (step inReset) =
      [0x00, 0x00, 0x00, 0xFD, 0x34, 0x8000, 7, 0x00, 0x00, 0x03, 0x80] ∧
      (after? (step inReset)).map (fun t => t.nmiLatch) = some false := by
  decide

theorem test_nmi_falling_edge_latches :
    (driveNmi false State.reset).nmiLatch = true ∧ (driveNmi true (driveNmi false State.reset)).lines.nmiN = true ∧
      (driveNmi true State.reset).nmiLatch = false := by
  decide

theorem test_first_instruction_after_reset :
    look [0x0010] (step ((State.reset.setA 0x77).withFetchWord 16 0x1085)) =
      [0x77, 0, 0, 0xFD, 0x34, 0x0002, 10, 0x77] := by
  decide

/-! ### Witnesses: for each statement with hypotheses, states and operands that meet them, clause by clause -/

/-- A state in which a NOP is next and no transfer is in flight. -/
def quietState : State := start 0x0200 [(0x0200, 0xEA)]

/-- With no plan and a wait drawn the agent lets a turn pass (R245, log entry 8). -/
theorem test_dma_wait : dmaTurn { inFlight with dmaWait := some 2 } = { inFlight with dmaWait := some 1 } := rfl

/-- `inFlight` with a plan: no DMA step before the next access, then two. -/
def planned : State := { inFlight with dmaPlan := [0, 2] }

theorem witness_DecodeEncodeRoundTrip :
    (Instr.lda (.izy 0xFF)).wf = true ∧ (Instr.jmp (.iax 0xFFFF)).wf = true ∧ Instr.rsv5C.wf = true := by
  decide

theorem witness_DecodedBytesReencode :
    decodeWith defaultReservedTable (0xAD :: [0xFF, 0x7F]) = .ok (.lda (.abs 0x7FFF), []) ∧
      decodeWith defaultReservedTable (0x5C :: [0x01, 0x02]) = .ok (.rsv5C, []) ∧
      (Instr.lda (.abs 0x7FFF)).reservedOpcode? = none ∧ Instr.rsv5C.reservedOpcode? ≠ none := by
  exact ⟨rfl, rfl, rfl, by decide⟩

theorem witness_PowerOnValues :
    ∃ rom st : List Byte, configOk defaultConfig = true ∧ rom.length = 65536 - defaultConfig.romBase.toNat ∧
      st.length ≤ 4194304 :=
  ⟨List.replicate 32768 0xEA, [], by decide, List.length_replicate, Nat.zero_le _⟩

theorem witness_ResetStep :
    inReset.quiet ∧ inReset.script = [] ∧ inReset.lines.power = true ∧ inReset.lines.ready = true ∧
      inReset.lines.resetN = false := by
  decide

theorem witness_StepKeepsInvariant_quiet :
    (pending quietState).Inv ∧ (after? (step (pending quietState))).isSome = true := by
  decide

theorem witness_StepKeepsInvariant_inFlight : planned.Inv ∧ (after? (step planned)).isSome = true := by decide

theorem witness_ParametersFixed :
    (after? (step quietState)).isSome = true ∧
      configOk { quietState.cfg with viaBase2 := quietState.cfg.viaBase1 } = false := by
  decide

theorem witness_AddressDecoder :
    configOk defaultConfig = true ∧
      ((viaBase defaultConfig .via2).toNat ≤ (0x7F1F : Addr).toNat ∧
        (0x7F1F : Addr).toNat ≤ (viaBase defaultConfig .via2).toNat + 15) ∧
      ((viaBase defaultConfig .via3).toNat ≤ (0x7F20 : Addr).toNat ∧
        (0x7F20 : Addr).toNat ≤ (viaBase defaultConfig .via3).toNat + 15) ∧
      ([ViaId.via1, .via2, .via3].all fun c =>
        decide ((0x7F30 : Addr).toNat < (viaBase defaultConfig c).toNat ∨
          (viaBase defaultConfig c).toNat + 15 < (0x7F30 : Addr).toNat)) = true ∧
      hi8 0x00FF = 0x00 ∧ hi8 0x01FF = defaultConfig.stackPage ∧ defaultConfig.vecIrq + 1 = 0xFFFF := by
  decide

theorem witness_CpuAccess :
    decodeAddr quietState.cfg 0x7F0F = .chip .via1 0xF ∧ decodeAddr quietState.cfg 0x7F10 = .chip .via2 0x0 ∧
      decodeAddr quietState.cfg 0x7EFF = .plain ∧ decodeAddr quietState.cfg 0xFFFF = .plain ∧
      quietState.sc.busy = false ∧ inFlight.sc.busy = true := by
  decide

theorem witness_AccessFrame : (pending quietState).sc.busy = false := by decide

theorem witness_RamReadAfterWrite :
    quietState.mem.wf 65536 = true ∧ ramRead 0x0200 quietState = 0xEA ∧ ramRead 0xFFFF quietState = 0x00 ∧
      (let m := (scTransfer inFlight).store
       m.wf 4194304 = true ∧ m ≠ [] ∧ m.read (0x3FFFFF : StoreAddr).toNat = 0x00) := by
  decide

theorem witness_EffectiveAddresses :
    quietState.quiet ∧ plainAddr quietState 0xFFFF ∧ plainAddr quietState (0xFFFF + 1) ∧
      plainAddr { quietState with x := 0xFF } (0x7E00 + zext16 0xFF) ∧
      plainAddr { quietState with x := 0xFE } (0x7E00 + zext16 0xFE + 1) := by
  decide

theorem witness_PushAndPull :
    { quietState with sp := 0x00 }.quiet ∧ quietState.mem.wf 65536 = true ∧ { quietState with sp := 0xFF }.quiet := by
  decide

theorem witness_PortRead : (latched1.via .via1).ifr.getLsbD 1 = true ∧ latched1.cfg.cl1Port = .p1 := by decide

theorem witness_PortWrite :
    (Companion.via3, Port.p1) ∈ State.reset.cfg.scFeed ∧ (Companion.via3, Port.p0) ∉ State.reset.cfg.scFeed ∧
      ViaId.via3 = companionVia .via3 := by
  decide

theorem witness_EnableRegister : (0x82 : Byte).getLsbD 7 = true ∧ ¬ (0x02 : Byte).getLsbD 7 = true := by decide

theorem witness_OtherRegisters :
    0x4 ≤ (0xF : BitVec 4).toNat ∧ (0xF : BitVec 4) ≠ 0xC ∧ (0xF : BitVec 4) ≠ 0xD ∧ (0xF : BitVec 4) ≠ 0xE ∧
      0x4 ≤ (0x4 : BitVec 4).toNat := by
  decide

theorem witness_ControlLineAssertion :
    (let s := latched1
     (s.via .via1).ier.getLsbD s.cfg.cl1IfrBit.val = true ∧
      (s.via .via1).pcr.getLsbD s.cfg.cl1PcrBit.val = decide (s.cfg.cl1AssertEdge = .rising)) ∧
    ¬ ((State.reset.via .via1).ier.getLsbD State.reset.cfg.cl1IfrBit.val = true ∧
      (State.reset.via .via1).pcr.getLsbD State.reset.cfg.cl1PcrBit.val =
        decide (State.reset.cfg.cl1AssertEdge = .rising)) := by
  decide

theorem witness_ByteProtocol :
    State.reset.sc.phase = .byte0 ∧ (scWriteByte 0xFF .via2 State.reset).sc.phase = .byte1 ∧
      (scWriteByte 0xFF .via3 (scWriteByte 0xFF .via2 State.reset)).sc.phase = .byte2 := by
  decide

theorem witness_Commit :
    State.reset.sc.dsrSet = false ∧
      (let k := (feedBytes .via2 .p1 [0x01, 0x00, 0x80] State.reset).sc
       k.dsrSet = true ∧ k.arSet = false) ∧
      (let k := (feedBytes .via2 .p1 [0x01, 0x00, 0x80, 0x02, 0x00, 0x80] State.reset).sc
       k.dsrSet = true ∧ k.arSet = true ∧ k.olrSet = false) ∧
      inFlight.sc.dsrSet = true ∧ inFlight.sc.arSet = true ∧ inFlight.sc.olrSet = true := by
  decide

theorem witness_TransferMovesBytes :
    inFlight.mem.wf 65536 = true ∧ inFlight.store.wf 4194304 = true ∧ inFlight.sc.dir = .receive ∧
      { inFlight.sc with dir := .send }.dir = .send := by
  decide

theorem witness_TransferRoundTrip :
    (let t : State :=
      { scTransfer inFlight with
        sc := { (scTransfer inFlight).sc with dir := .send, dsr := 0x0400, ar := inFlight.sc.ar, olr := inFlight.sc.olr } }
     inFlight.mem.wf 65536 = true ∧ inFlight.store.wf 4194304 = true ∧ inFlight.sc.dir = .receive ∧
      t.mem = (scTransfer inFlight).mem ∧ t.store = (scTransfer inFlight).store ∧ t.sc.dir = .send ∧
      t.sc.ar = inFlight.sc.ar ∧ t.sc.olr = inFlight.sc.olr ∧ 3 < inFlight.sc.olr.toNat) := by
  decide

theorem witness_NineWritesTransfer :
    (Companion.via2, Port.p1) ∈ quietState.cfg.scFeed ∧ quietState.sc.phase = .byte0 ∧ quietState.sc.scratch = 0 ∧
      quietState.sc.dsrSet = false ∧ quietState.sc.arSet = false ∧ quietState.sc.olrSet = false := by
  decide

theorem witness_PerByteTransferEqualsWhole :
    inFlight.sc.busy = true ∧ inFlight.sc.xferI = 0 ∧ inFlight.cfg.dmaGranularity = .perByte ∧
      4 ≤ inFlight.sc.olr.toNat := by
  decide

theorem witness_Loads :
    (Instr.lda (.zpi 0xFF)).wf = true ∧ (Instr.ldx (.zpy 0xFF)).wf = true ∧ (Instr.ldy (.abx 0xFFFF)).wf = true ∧
      quietState.sc.busy = false := by
  decide

theorem witness_Stores_plain :
    (Instr.sta (.abx 0x7EFF)).wf = true ∧ (Instr.stx (.zpy 0x00)).wf = true ∧ (Instr.sty (.zpx 0x00)).wf = true ∧
      (Instr.stz (.abx 0x7EFF)).wf = true ∧ quietState.quiet ∧
      plainAddr quietState (effAddr (.abx 0x7EFF) quietState).addr ∧ quietState.mem.wf 65536 = true := by
  decide

theorem witness_Stores_window :
    (Instr.sta (.abx 0x7EFF)).wf = true ∧ { quietState with x := 0x01 }.quiet ∧
      decodeAddr quietState.cfg (effAddr (.abx 0x7EFF) { quietState with x := 0x01 }).addr = .chip .via1 0x0 := by
  decide

theorem witness_Logic : (Instr.ora (.izx 0xFF)).wf = true ∧ quietState.sc.busy = false := by decide

theorem witness_AddAndSubtract : (Instr.adc (.aby 0xFFFF)).wf = true ∧ quietState.sc.busy = false := by decide

theorem witness_DecimalArithmetic : (9 : Nat) < 10 ∧ (0 : Nat) < 10 := by decide

theorem witness_BitTest :
    (Instr.bit (.imm 0x00)).wf = true ∧ (Instr.bit (.abx 0xFFFF)).wf = true ∧ quietState.sc.busy = false := by
  decide

theorem witness_TestAndChangeBits :
    (Instr.tsb (.abs 0x7EFF)).wf = true ∧ quietState.quiet ∧ plainAddr quietState (effAddr (.abs 0x7EFF) quietState).addr ∧
      quietState.mem.wf 65536 = true := by
  decide

theorem witness_Shifts :
    (Instr.ror (.zpx 0xFF)).wf = true ∧ (Mode.zpx 0xFF) ≠ .acc ∧ quietState.quiet ∧
      plainAddr quietState (effAddr (.zpx 0xFF) quietState).addr ∧ quietState.mem.wf 65536 = true := by
  decide

theorem witness_IncrementAndDecrement :
    (Instr.dec (.abx 0x7F30)).wf = true ∧ (Mode.abx 0x7F30) ≠ .acc ∧ quietState.quiet ∧
      plainAddr quietState (effAddr (.abx 0x7F30) quietState).addr ∧ quietState.mem.wf 65536 = true := by
  decide

theorem witness_Compares :
    (Instr.cmp (.izy 0xFF)).wf = true ∧ (Instr.cpx (.imm 0x00)).wf = true ∧ (Instr.cpy (.abs 0xFFFF)).wf = true ∧
      quietState.sc.busy = false := by
  decide

theorem witness_Branches :
    getFlag quietState.p .n = false ∧ ¬ getFlag quietState.p .n = true ∧ getFlag { quietState with p := 0xFF }.p .c = true := by
  decide

theorem witness_Jump :
    (Instr.jmp (.ind 0x10FF)).wf = true ∧ (Instr.jmp (.abs 0xFFFF)).wf = true ∧ quietState.sc.busy = false := by
  decide

theorem witness_Pushes :
    { quietState with sp := 0x00 }.quiet ∧ quietState.mem.wf 65536 = true ∧ Flag.b ≠ .u := by
  decide

theorem witness_Pulls : { quietState with sp := 0xFF }.quiet := by decide

theorem witness_CallAndReturn : { quietState with sp := 0x00 }.quiet ∧ quietState.mem.wf 65536 = true := by decide

theorem witness_CallThenReturn :
    { quietState with sp := 0x00 }.quiet ∧ quietState.mem.wf 65536 = true ∧
      (match exec (.jsr 0x9000) { quietState with sp := 0x00 } with
       | .next t => (after? (exec .rts t)).isSome
       | _ => false) = true := by
  decide

theorem witness_ReturnFromInterrupt : { quietState with sp := 0xFE }.quiet := by decide

theorem witness_SoftwareInterrupt : { quietState with sp := 0x01 }.quiet ∧ quietState.mem.wf 65536 = true := by decide

theorem witness_InterruptEntry :
    { quietState with sp := 0x01 }.quiet ∧ (0xFFFA : Addr) = quietState.cfg.vecNmi ∧ (0xFFFE : Addr) = quietState.cfg.vecIrq ∧
      quietState.mem.wf 65536 = true := by
  decide

theorem witness_InterruptCheckOrder :
    { quietState with nmiLatch := true }.nmiLatch = true ∧ quietState.nmiLatch = false ∧
      ((pending quietState).via .via1).ifr ≠ 0 ∧ getFlag (pending quietState).p .i = false ∧
      (pending quietState).nmiLatch = false ∧ getFlag { pending quietState with p := 0x24 }.p .i = true ∧
      (quietState.via1.ifr = 0 ∧ quietState.via2.ifr = 0 ∧ quietState.via3.ifr = 0) := by
  decide

theorem witness_EntryThenReturn :
    { quietState with sp := 0x01 }.quiet ∧ quietState.mem.wf 65536 = true ∧ (0xFFFA : Addr) = quietState.cfg.vecNmi ∧
      (after? (exec .rti (interruptEntry 0xFFFA { quietState with sp := 0x01 }))).isSome = true := by
  decide

theorem witness_NopAndReserved :
    Instr.rsvFF.reservedOpcode? = some 0xFF ∧ Instr.rsv02.reservedOpcode? = some 0x02 := by
  decide

/-- LDA $01FF at the last bytes before the first window. -/
def nearWindow : State := start 0x7EFD [(0x7EFD, 0xAD), (0x7EFE, 0xFF), (0x7EFF, 0x01)]

theorem witness_StepRunsDecoded :
    nearWindow.quiet ∧ nearWindow.running ∧
      decodeWith nearWindow.cfg.reservedTable
        [ramRead nearWindow.pc nearWindow, ramRead (nearWindow.pc + 1) nearWindow, ramRead (nearWindow.pc + 2) nearWindow] =
          .ok (.lda (.abs 0x01FF), []) ∧
      (Instr.lda (.abs 0x01FF)).operandBytes.length = 2 ∧ plainAddr nearWindow (nearWindow.pc + BitVec.ofNat 16 0) ∧
      plainAddr nearWindow (nearWindow.pc + BitVec.ofNat 16 1) ∧ plainAddr nearWindow (nearWindow.pc + BitVec.ofNat 16 2) := by
  exact ⟨by decide, by decide, rfl, by decide, by decide, by decide, by decide⟩

theorem witness_OnlyPowerOffStops :
    (let s := { quietState with lines := ⟨false, true, true, true⟩ }
     configOk s.cfg = true ∧ s.lines.power = false ∧ (after? (step s)).isSome = false) ∧
    (let s := { quietState with lines := ⟨true, false, true, true⟩ }
     s.quiet ∧ s.script = [] ∧ s.lines.power = true ∧ s.lines.ready = false) ∧
    (let s := { inFlight with script := [.dma, .env (.setReady false)] }
     configOk s.cfg = true ∧ s.lines.power = true) := by
  decide

theorem witness_EnvironmentMoves : configOk quietState.cfg = true ∧ quietState.lines.power = true := by decide

theorem witness_EnvironmentMoves_held :
    (let s := { planned with lines := ⟨true, false, false, true⟩ }
     configOk s.cfg = true ∧ s.lines.power = true ∧ s.lines.ready = false ∧ s.sc.busy = true ∧ s.dmaPlan = 0 :: [2]) ∧
    (let s := { inFlight with lines := ⟨true, false, true, true⟩, dmaWait := some 0 }
     configOk s.cfg = true ∧ s.lines.power = true ∧ s.lines.ready = false ∧ s.sc.busy = true ∧ s.dmaPlan = [] ∧
      s.dmaWait.getD (Config.dmaDelay s.freeIndex) = 0) ∧
    (let s := { inFlight with lines := ⟨true, false, true, true⟩, dmaWait := some 3 }
     s.sc.busy = true ∧ s.dmaPlan = [] ∧ s.dmaWait.getD (Config.dmaDelay s.freeIndex) = 2 + 1) ∧
    (let s := { quietState with lines := ⟨true, false, true, true⟩ }
     configOk s.cfg = true ∧ s.lines.power = true ∧ s.lines.ready = false ∧ s.sc.busy = false) := by
  exact ⟨by decide, ⟨by decide, by decide, by decide, by decide, by decide, rfl⟩, ⟨by decide, by decide, rfl⟩, by decide⟩

theorem witness_AsynchronousTransferFinishes :
    (let s := { planned with script := [.env (.setReady false), .dma, .cpu] }
     s.Inv ∧ configOk s.cfg = true ∧ s.lines.power = true ∧ Turn.env (.setPower false) ∉ s.script ∧ s.sc.busy = true) := by
  decide

theorem witness_SelfLoopIsFixedPoint_branch :
    (let s := start 0x02FE [(0x02FE, 0x80), (0x02FF, 0xFE)]
     s.quiet ∧ s.running ∧ s.nmiLatch = false ∧ s.irqN = true ∧ plainAddr s s.pc ∧ plainAddr s (s.pc + 1) ∧
      ramRead s.pc s = 0x80 ∧ ramRead (s.pc + 1) s = 0xFE) := by
  decide

theorem witness_SelfLoopIsFixedPoint_jump :
    (let s := { pending (start 0x8000 [(0x8000, 0x4C), (0x8001, 0x00), (0x8002, 0x80)]) with p := 0x24 }
     s.quiet ∧ s.running ∧ s.nmiLatch = false ∧ getFlag s.p .i = true ∧ plainAddr s s.pc ∧ plainAddr s (s.pc + 1) ∧
      plainAddr s (s.pc + 2) ∧ ramRead s.pc s = 0x4C ∧ ramRead (s.pc + 1) s = lo8 s.pc ∧
      ramRead (s.pc + 2) s = hi8 s.pc) := by
  decide

theorem witness_RegisterWriters :
    (Instr.lda (.imm 0x01)).wf = true ∧
      (after? (exec (.lda (.imm 0x01)) quietState)).any (fun t => decide (t.a ≠ quietState.a)) = true ∧
      (after? (exec .inx quietState)).any (fun t => decide (t.x ≠ quietState.x)) = true ∧
      (after? (exec .dey quietState)).any (fun t => decide (t.y ≠ quietState.y)) = true ∧
      (after? (exec .pha quietState)).any (fun t => decide (t.sp ≠ quietState.sp)) = true := by
  decide

theorem witness_FlagWriters :
    (after? (exec (.bit (.imm 0x01)) quietState)).isSome = true ∧ Flag.v ∉ flagsWritten quietState.cfg (.bit (.imm 0x01)) ∧
      (after? (exec .brk quietState)).isSome = true ∧ Flag.d ∉ flagsWritten quietState.cfg .brk := by
  decide

end Sys2Proof.Tests
end

section
/-! PROOFS. No step changes a parameter: every operation a step is made of keeps `cfg`, one lemma per operation; and every
instruction answers a next state (spec/00_scope.md R7, R8). -/

namespace Sys2Proof.Machine

variable (s : State)

@[simp] theorem readOperand_cfg (m : Mode) : (readOperand m s).st.cfg = s.cfg := by
  rw [readOperand_eq, operandAt_cfg]

@[simp] theorem storeOperand_cfg (m : Mode) (v : Byte) : (storeOperand m v s).cfg = s.cfg :=
  (storeOperand_sameCpu m v s).cfg

@[simp] theorem modifyOperand_cfg (m : Mode) (f : Byte → Byte × Byte) (cost : Bool → Nat) :
    (modifyOperand m f cost s).cfg = s.cfg := by
  by_cases hm : m = .acc
  · rw [hm]; rfl
  · rw [modifyOperand_memory hm]
    simp

@[simp] theorem branch_cfg (cond : Bool) (rel8 : Byte) : (branch cond rel8 s).cfg = s.cfg := by
  cases cond <;> rfl

@[simp] theorem push_cfg (v : Byte) : (push v s).cfg = s.cfg := by simp [push]

@[simp] theorem pull_cfg : (pull s).2.cfg = s.cfg := by simp [pull]

@[simp] theorem push16_cfg (a : Addr) : (push16 a s).cfg = s.cfg := by simp [push16]

@[simp] theorem pull16_cfg : (pull16 s).2.cfg = s.cfg := by simp [pull16]

@[simp] theorem takeException_cfg (ret : Addr) (status : Byte) (vec : Addr) :
    (takeException ret status vec s).cfg = s.cfg := by
  simp [takeException]

@[simp] theorem returnFromException_cfg : (returnFromException s).cfg = s.cfg := by simp [returnFromException]

/-- Every instruction, in every state and whatever its operands, answers a next state, with the parameters as they were. -/
theorem exec_next_cfg (i : Instr) : ∃ t, exec i s = .next t ∧ t.cfg = s.cfg := by
  cases i with
  | lda m | ldx m | ldy m | ora m | and m | eor m | adc m | sbc m | bit m | cmp m | cpx m | cpy m =>
    exact ⟨_, rfl, readOperand_cfg s m⟩
  | sta m | stx m | sty m | stz m => exact ⟨_, rfl, storeOperand_cfg s m _⟩
  | tsb m | trb m | asl m | lsr m | rol m | ror m | inc m | dec m => exact ⟨_, rfl, modifyOperand_cfg s m _ _⟩
  | bpl r | bmi r | bvc r | bvs r | bcc r | bcs r | bne r | beq r | bra r => exact ⟨_, rfl, branch_cfg s _ r⟩
  | jmp m => exact ⟨_, rfl, effAddr_cfg m s⟩
  | pha | php | phx | phy => exact ⟨_, rfl, push_cfg s _⟩
  | pla | plp | plx | ply => exact ⟨_, rfl, pull_cfg s⟩
  | jsr a => exact ⟨_, rfl, push16_cfg s _⟩
  | rts => exact ⟨_, rfl, pull16_cfg s⟩
  | rti => exact ⟨_, rfl, returnFromException_cfg s⟩
  | brk => exact ⟨_, rfl, takeException_cfg (s.setP _) _ _ _⟩
  -- transfers, flags, counts in registers, NOP and the reserved opcodes touch registers alone
  | _ => exact ⟨_, rfl, rfl⟩

@[simp] theorem interruptCheck_cfg : (interruptCheck s).cfg = s.cfg := by
  rw [interruptCheck]
  split
  · exact takeException_cfg (s.setNmiLatch false) _ _ _
  · split
    · exact takeException_cfg s _ _ _
    · rfl

@[simp] theorem fetch_cfg : (fetch s).2.cfg = s.cfg := by simp [fetch]

@[simp] theorem fetchInstr_cfg : (fetchInstr s).2.cfg = s.cfg := by
  simp only [fetchInstr]
  split <;> simp

@[simp] theorem cpuReset_cfg : (cpuReset s).cfg = s.cfg := by simp [cpuReset]

theorem clearRun_cfg (n : Nat) : ∀ (a : Nat) (s : State), (clearRun a n s).cfg = s.cfg := by
  induction n with
  | zero => exact fun _ _ => rfl
  | succ n ih =>
    intro a s
    rw [clearRun, ih, (ramWrite_sameCpu _ _ _).cfg, dmaTurn_cfg]

@[simp] theorem resetStep_cfg : (resetStep s).cfg = s.cfg := by
  rw [resetStep, clearRam]
  split
  · rw [clearRun_cfg, cpuReset_cfg]
  · exact cpuReset_cfg s

@[simp] theorem envMove_cfg (m : EnvMove) : (envMove m s).cfg = s.cfg := by
  cases m with
  | setPin c p v => exact (setVia_sameCpu c _ s).cfg
  | assertCl1 c => exact (assertCl1_sameCpu c s).cfg
  | setNmiN level =>
    simp only [envMove, driveNmi]
    split <;> rfl
  | _ => rfl

end Sys2Proof.Machine
end

section
/-! PROOFS. What one turn answers: the outcomes of `step`, said once (spec/00_scope.md R6, R7; log entries 14 and 15). -/

namespace Sys2Proof.Machine

theorem cpuStep_held {s : State} (h : s.lines.ready = false) : cpuStep s = .next (dmaTurn s) := by
  simp [cpuStep, h]

theorem cpuStep_fetching {s : State} (hr : s.lines.ready = true) (hn : s.lines.resetN = true) :
    cpuStep s = runInstr (fetchInstr s).1 (fetchInstr s).2 := by
  simp [cpuStep, hr, hn]

theorem runInstr_of_exec {i : Instr} {s t : State} (h : exec i s = .next t) :
    runInstr i s = .next (interruptCheck t) := by
  rw [runInstr, h]

/-- A CPU turn always answers a next state, with the parameters as they were. -/
theorem cpuStep_next_cfg (s : State) : ∃ t, cpuStep s = .next t ∧ t.cfg = s.cfg := by
  rw [cpuStep]
  split
  · exact ⟨_, rfl, dmaTurn_cfg s⟩
  · split
    · exact ⟨_, rfl, resetStep_cfg s⟩
    · obtain ⟨t, ht, hcfg⟩ := exec_next_cfg (fetchInstr s).2 (fetchInstr s).1
      exact ⟨_, runInstr_of_exec ht, by rw [interruptCheck_cfg, hcfg, fetchInstr_cfg]⟩

theorem step_badConfiguration {s : State} (h : configOk s.cfg = false) : step s = .refused .badConfiguration := by
  simp [step, h]

theorem step_powerOff {s : State} (hc : configOk s.cfg = true) (hp : s.lines.power = false) :
    step s = .fault .powerOff := by
  simp [step, hc, hp]

/-- With an empty script a powered machine takes a CPU turn. -/
theorem step_cpu {s : State} (hc : configOk s.cfg = true) (hp : s.lines.power = true) (hs : s.script = []) :
    step s = cpuStep s := by
  simp [step, hc, hp, hs]

/-- Whosever turn it is, a powered machine with parameters that meet R7 answers a next state, with the same parameters. -/
theorem step_next_cfg {s : State} (hc : configOk s.cfg = true) (hp : s.lines.power = true) :
    ∃ t, step s = .next t ∧ t.cfg = s.cfg := by
  simp only [step, hc, hp, if_true, Bool.not_true, Bool.false_eq_true, if_false]
  split
  · next m rest _ => exact ⟨_, rfl, envMove_cfg (s.setScript rest) m⟩
  · next rest _ => exact ⟨_, rfl, (dmaSteps_sameCpu 1 (s.setScript rest)).cfg⟩
  · next rest _ => exact cpuStep_next_cfg (s.setScript rest)
  · exact cpuStep_next_cfg s

/-- The three outcomes of a step: refused for its parameters, the fault of a powered-off machine, or a next state. -/
theorem step_outcome (s : State) :
    (configOk s.cfg = false ∧ step s = .refused .badConfiguration) ∨
      (s.lines.power = false ∧ step s = .fault .powerOff) ∨ ∃ t, step s = .next t ∧ t.cfg = s.cfg := by
  cases hc : configOk s.cfg with
  | false => exact .inl ⟨rfl, step_badConfiguration hc⟩
  | true =>
    cases hp : s.lines.power with
    | false => exact .inr (.inl ⟨rfl, step_powerOff hc hp⟩)
    | true => exact .inr (.inr (step_next_cfg hc hp))

/-- Settles O10: of the three outcomes of a step only the next state is one, and every operation keeps the parameters. -/
theorem parametersFixed : Obligations.ParametersFixed := by
  refine ⟨fun s t h => ?_, fun s => step_badConfiguration⟩
  rcases step_outcome s with ⟨-, e⟩ | ⟨-, e⟩ | ⟨u, e, hcfg⟩
  · cases e.symm.trans h
  · cases e.symm.trans h
  · cases e.symm.trans h
    exact hcfg

/-- Settles O55: `exec` answers a next state for every instruction, and a step stops only before any turn is taken. -/
theorem onlyPowerOffStops : Obligations.OnlyPowerOffStops := by
  refine ⟨fun i s => ?_, fun s hc hp => ?_, fun s => step_powerOff, fun s hq hs hp hr => ?_, fun s h => ?_⟩
  · exact (exec_next_cfg s i).imp fun _ => And.left
  · exact (step_next_cfg hc hp).imp fun _ => And.left
  · rw [step_cpu hq.1 hp hs, cpuStep_held hr, dmaTurn_idle hq.2]
  · rcases step_outcome s with ⟨-, e⟩ | ⟨hp, -⟩ | ⟨u, e, -⟩
    · cases e.symm.trans h
    · exact hp
    · cases e.symm.trans h

end Sys2Proof.Machine
end

section
/-! PROOFS. The state after reset: power-on with the default parameters and empty images (spec/10_state.md Table 10-4). -/

namespace Sys2Proof.Machine

/-- With empty images the reset vector reads 0x0000 from the ROM region, so power-on gives the state written out as
`State.reset` (R300, R304). -/
theorem powerOn_defaultConfig : powerOn defaultConfig [] [] = State.reset := rfl

/-- Settles O5: each value is the default's; the images are empty, so every byte of both memories is unlisted. -/
theorem resetValues : Obligations.ResetValues := by
  have hmem (b : Addr) : ramRead b State.reset = 0x00 := rfl
  have hstore (k : StoreAddr) : State.reset.store.read k.toNat = 0x00 := rfl
  have hvia (c : ViaId) : State.reset.via c = Via.powerOn := by cases c <;> rfl
  exact ⟨rfl, rfl, rfl, rfl, rfl, rfl, rfl, rfl, rfl, hmem, hstore, hvia, rfl, rfl, rfl, rfl, rfl, rfl, rfl,
    powerOn_defaultConfig⟩

end Sys2Proof.Machine
end

section
/-! PROOFS. The fetch agrees with the decoder: the opcode alone says how many operand bytes are read, and the bytes not read
do not matter (spec/30_encoding.md R70 to R72). -/

namespace Sys2Proof.Machine

/-- `f` makes an instruction of two bytes and uses as many of them as the instruction has operand bytes; of two, both. (The
last equation says nothing: it keeps the three clauses alike.) -/
def UsesItsOperands (f : Byte → Byte → Instr) : Prop :=
  match (f 0 0).operandBytes.length with
  | 0 => ∀ b1 b2, (f b1 b2).operandBytes.length = 0 ∧ f b1 b2 = f 0 0
  | 1 => ∀ b1 b2, (f b1 b2).operandBytes.length = 1 ∧ f b1 b2 = f b1 0
  | _ => ∀ b1 b2, (f b1 b2).operandBytes.length = 2 ∧ f b1 b2 = f b1 b2

/-- Table 30-2, row by row and in each row column by column. -/
theorem decodeOpcode_usesItsOperands (op : Byte) : UsesItsOperands (decodeOpcode op) := by
  have hrow : op.toNat / 16 < 16 := by have := op.isLt; omega
  have hcol : op.toNat % 16 < 16 := Nat.mod_lt _ (by decide)
  unfold decodeOpcode
  generalize op.toNat / 16 = row at hrow ⊢
  generalize op.toNat % 16 = col at hcol ⊢
  interval_cases row
  all_goals
    simp only -- the row's own table
    interval_cases col <;> exact fun _ _ => ⟨rfl, rfl⟩

/-- An opcode has no operand byte, one or two, and what it decodes to does not depend on the bytes after them (R71, R72). -/
theorem operandCount_cases (op : Byte) :
    (operandCount op = 0 ∧ ∀ b1 b2, decodeOpcode op b1 b2 = decodeOpcode op 0 0) ∨
      (operandCount op = 1 ∧ ∀ b1 b2, decodeOpcode op b1 b2 = decodeOpcode op b1 0) ∨ operandCount op = 2 := by
  have h := decodeOpcode_usesItsOperands op
  rw [UsesItsOperands] at h
  split at h
  · next hn => exact .inl ⟨hn, fun b1 b2 => (h b1 b2).2⟩
  · next hn => exact .inr (.inl ⟨hn, fun b1 b2 => (h b1 b2).2⟩)
  · exact .inr (.inr (h 0 0).1)

theorem decodeOpcode_operandBytes_length (op b1 b2 : Byte) :
    (decodeOpcode op b1 b2).operandBytes.length = operandCount op := by
  have h := decodeOpcode_usesItsOperands op
  rw [UsesItsOperands] at h
  split at h <;> exact (h b1 b2).1.trans (h 0 0).1.symm

/-- What a list of bytes decodes to is what its opcode makes of the two bytes after it. -/
theorem decodeWith_ok {t : List ReservedRow} {op b1 b2 : Byte} {i : Instr} {rest : List Byte}
    (h : decodeWith t [op, b1, b2] = .ok (i, rest)) : i = decodeOpcode op b1 b2 := by
  rw [decodeWith] at h
  split at h
  · cases h
  · injection h with h
    exact (congrArg Prod.fst h).symm

/-- A fetch from Bus memory with no transfer in flight. -/
theorem fetch_plain {s : State} (hb : s.sc.busy = false) (hp : plainAddr s s.pc) :
    fetch s = (ramRead s.pc s, s.setPc (s.pc + 1)) := by
  rw [fetch, memRead_plain hb hp]

/-- Fetching an instruction whose bytes lie in Bus memory, with no transfer in flight: what those bytes decode to, PC past them. -/
theorem fetchInstr_plain {s : State} (hb : s.sc.busy = false)
    (hp : ∀ k, k ≤ operandCount (ramRead s.pc s) → plainAddr s (s.pc + BitVec.ofNat 16 k)) :
    fetchInstr s =
      (decodeOpcode (ramRead s.pc s) (ramRead (s.pc + 1) s) (ramRead (s.pc + 2) s),
        s.setPc (s.pc + BitVec.ofNat 16 (1 + operandCount (ramRead s.pc s)))) := by
  have e2 : s.pc + 1 + 1 = s.pc + 2 := by bv_omega
  have h0 : fetch s = (ramRead s.pc s, s.setPc (s.pc + 1)) :=
    fetch_plain hb (by simpa using hp 0 (Nat.zero_le _))
  have h1 (hn : 1 ≤ operandCount (ramRead s.pc s)) :
      fetch (s.setPc (s.pc + 1)) = (ramRead (s.pc + 1) s, s.setPc (s.pc + 2)) := by
    rw [fetch_plain (s := s.setPc (s.pc + 1)) hb (hp 1 hn), ← e2]
    rfl
  have h2 (hn : 2 ≤ operandCount (ramRead s.pc s)) :
      fetch (s.setPc (s.pc + 2)) = (ramRead (s.pc + 2) s, s.setPc (s.pc + 3)) := by
    have e3 : s.pc + 2 + 1 = s.pc + 3 := by bv_omega
    rw [fetch_plain (s := s.setPc (s.pc + 2)) hb (hp 2 hn), ← e3]
    rfl
  rw [fetchInstr, h0]
  rcases operandCount_cases (ramRead s.pc s) with ⟨hn, hi⟩ | ⟨hn, hi⟩ | hn
  · simp only [hn, ← hi (ramRead (s.pc + 1) s) (ramRead (s.pc + 2) s)]
    rfl
  · simp only [hn, h1 hn.ge, ← hi (ramRead (s.pc + 1) s) (ramRead (s.pc + 2) s)]
    rfl
  · simp only [hn, h1 (by omega), h2 hn.ge]
    rfl

/-- Settles O54: the fetch reads the bytes that are decoded, a powered CPU at its turn executes what was fetched, and `exec`
answers a next state. -/
theorem stepRunsDecoded : Obligations.StepRunsDecoded := by
  rintro s i rest ⟨hc, hb⟩ ⟨hs, hp, hr, hn⟩ hdec hplain
  have hi := decodeWith_ok hdec
  have hlen : i.operandBytes.length = operandCount (ramRead s.pc s) := by
    rw [hi, decodeOpcode_operandBytes_length]
  rw [hlen] at hplain ⊢
  obtain ⟨t, ht, -⟩ := exec_next_cfg (s.setPc (s.pc + BitVec.ofNat 16 (1 + operandCount (ramRead s.pc s)))) i
  refine ⟨t, ht, ?_⟩
  rw [step_cpu hc hp hs, cpuStep_fetching hr hn, fetchInstr_plain hb hplain, ← hi]
  exact runInstr_of_exec ht

end Sys2Proof.Machine
end

section
/-! PROOFS. The invariant through a whole turn: the fetch, every instruction, the interrupt check, a reset step and the
environment's moves keep it, one lemma per operation (spec/10_state.md R28, spec/48_via.md R215, spec/49_storage_controller.md
R241 to R245). -/

namespace Sys2Proof.Machine

variable {s : State}

theorem inv_readOperand (h : s.Inv) (m : Mode) : (readOperand m s).st.Inv := by
  rw [readOperand_eq]
  exact inv_operandAt h m

theorem inv_branch (h : s.Inv) (cond : Bool) (rel8 : Byte) : (branch cond rel8 s).Inv := by
  cases cond <;> exact h

theorem inv_push16 (h : s.Inv) (a : Addr) : (push16 a s).Inv := inv_push (inv_push h _) _

theorem inv_pull16 (h : s.Inv) : (pull16 s).2.Inv := by
  simp only [pull16]
  exact inv_pull (inv_pull h)

theorem inv_returnFromException (h : s.Inv) : (returnFromException s).Inv := by
  have hp := inv_pull16 ((inv_setP _ ((pull s).1 &&& 0xCF)).2 (inv_pull h))
  exact (inv_charge _ 6).2 ((inv_setPc _ _).2 hp)

theorem inv_softwareInterrupt (h : s.Inv) : (softwareInterrupt s).Inv := by
  rw [softwareInterrupt]
  exact inv_takeException ((inv_setP s _).2 h) _ _ _

/-- Every instruction, in every state and whatever its operands, keeps the invariant. -/
theorem inv_exec (h : s.Inv) (i : Instr) : ∃ t, exec i s = .next t ∧ t.Inv := by
  cases i with
  | lda m | ldx m | ldy m | ora m | and m | eor m | adc m | sbc m | bit m | cmp m | cpx m | cpy m =>
    exact ⟨_, rfl, inv_readOperand h m⟩
  | sta m | stx m | sty m | stz m => exact ⟨_, rfl, (inv_charge _ _).2 (inv_storeOperand h m _)⟩
  | tsb m | trb m | asl m | lsr m | rol m | ror m | inc m | dec m => exact ⟨_, rfl, inv_modifyOperand h m _ _⟩
  | bpl r | bmi r | bvc r | bvs r | bcc r | bcs r | bne r | beq r | bra r => exact ⟨_, rfl, inv_branch h _ r⟩
  | jmp m => exact ⟨_, rfl, (inv_charge _ _).2 ((inv_setPc _ _).2 (inv_effAddr h m))⟩
  | pha | php | phx | phy => exact ⟨_, rfl, (inv_charge _ _).2 (inv_push h _)⟩
  | pla | plp | plx | ply => exact ⟨_, rfl, by simpa using inv_pull h⟩
  | jsr a => exact ⟨_, rfl, (inv_charge _ _).2 ((inv_setPc _ _).2 (inv_push16 h _))⟩
  | rts => exact ⟨_, rfl, (inv_charge _ _).2 ((inv_setPc _ _).2 (inv_pull16 h))⟩
  | rti => exact ⟨_, rfl, inv_returnFromException h⟩
  | brk => exact ⟨_, rfl, inv_softwareInterrupt h⟩
  -- transfers, flags, counts in registers, NOP and the reserved opcodes touch registers alone
  | _ => exact ⟨_, rfl, h⟩

theorem inv_interruptEntry (h : s.Inv) (vec : Addr) : (interruptEntry vec s).Inv := by
  rw [interruptEntry]
  exact inv_takeException h _ _ _

theorem inv_interruptCheck (h : s.Inv) : (interruptCheck s).Inv := by
  rw [interruptCheck]
  split
  · exact inv_interruptEntry ((inv_setNmiLatch s false).2 h) _
  · split
    · exact inv_interruptEntry h _
    · exact h

theorem inv_fetch (h : s.Inv) : (fetch s).2.Inv := by
  rw [fetch]
  exact (inv_setPc _ _).2 (inv_memRead h s.pc)

theorem inv_fetchInstr (h : s.Inv) : (fetchInstr s).2.Inv := by
  simp only [fetchInstr]
  split
  · exact inv_fetch h
  · exact inv_fetch (inv_fetch h)
  · exact inv_fetch (inv_fetch (inv_fetch h))

theorem inv_cpuReset (h : s.Inv) : (cpuReset s).Inv := by
  rw [cpuReset]
  refine (inv_charge _ _).2 ((inv_setPc _ _).2 (inv_read16 ?_ _))
  simpa using h

theorem inv_clearRun (n : Nat) : ∀ (a : Nat) {s : State}, s.Inv → (clearRun a n s).Inv := by
  induction n with
  | zero => exact fun _ _ h => h
  | succ n ih => exact fun a _ h => ih (a + 1) (inv_ramWrite (inv_dmaTurn h) _ _)

theorem inv_clearRam (h : s.Inv) : (clearRam s).Inv := by
  rw [clearRam]
  split
  · exact inv_clearRun _ 0 h
  · exact inv_setMem h (Memory.wf_clearBelow h.1 _)

theorem inv_resetStep (h : s.Inv) : (resetStep s).Inv := by
  rw [resetStep]
  exact inv_clearRam (inv_cpuReset h)

theorem inv_envMove (h : s.Inv) (m : EnvMove) : (envMove m s).Inv := by
  cases m with
  | setPin c p v => exact inv_setVia h c (disciplined_setPin (inv_via h c) p v)
  | assertCl1 c => exact inv_assertCl1 h c
  | setNmiN level =>
    simp only [envMove, driveNmi]
    split <;> exact h
  | _ => exact h

theorem inv_runInstr (h : s.Inv) {i : Instr} {t : State} (ht : runInstr i s = .next t) : t.Inv := by
  obtain ⟨u, hu, hinv⟩ := inv_exec h i
  cases (runInstr_of_exec hu).symm.trans ht
  exact inv_interruptCheck hinv

theorem inv_cpuStep (h : s.Inv) {t : State} (ht : cpuStep s = .next t) : t.Inv := by
  rw [cpuStep] at ht
  split at ht
  · cases ht
    exact inv_dmaTurn h
  · split at ht
    · cases ht
      exact inv_resetStep h
    · exact inv_runInstr (inv_fetchInstr h) ht

/-- Settles O9: whosever turn it is, what the turn does keeps the invariant; a step that stops has no next state. -/
theorem stepKeepsInvariant : Obligations.StepKeepsInvariant := by
  intro s t h ht
  rw [step] at ht
  split at ht
  · split at ht
    · cases ht
    · split at ht
      · next m rest _ => cases ht; exact inv_envMove ((inv_setScript s rest).2 h) m
      · next rest _ => cases ht; exact inv_dmaSteps 1 ((inv_setScript s rest).2 h)
      · next rest _ => exact inv_cpuStep ((inv_setScript s rest).2 h) ht
      · exact inv_cpuStep h ht
  · cases ht

end Sys2Proof.Machine
end

section
/-! PROOFS. Push and Pull with no transfer in flight (spec/10_state.md R16 to R18). -/

namespace Sys2Proof.Machine

/-- SP moves down modulo 256. -/
theorem byte_sub_one (b : Byte) : b - 1 = BitVec.ofNat 8 (b.toNat + 255) := by bv_omega

/-- SP moves up modulo 256. -/
theorem byte_add_one (b : Byte) : b + 1 = BitVec.ofNat 8 (b.toNat + 1) := by bv_omega

theorem eq_stackAddr_iff (s : State) (b : Addr) :
    b = stackAddr s ↔ b.toNat = s.cfg.stackPage.toNat * 256 + s.sp.toNat := by
  rw [← addr_toNat_inj, stackAddr, mk16_toNat]

/-- Settles O16: the stack page leads to Bus memory, so a push is one write of it and a pull one read. -/
theorem pushAndPull : Obligations.PushAndPull := by
  intro s v hq
  refine ⟨?_, ?_, fun hw b => ?_⟩
  · rw [push_quiet hq, byte_sub_one]
    rfl
  · rw [pull_quiet hq, byte_add_one]
    rfl
  · rw [push_quiet hq]
    calc ramRead b ((ramWrite (stackAddr s) v s).setSp (s.sp - 1))
      _ = ramRead b (ramWrite (stackAddr s) v s) := rfl
      _ = if b = stackAddr s then v else ramRead b s := ramRead_ramWrite hw _ b v
      _ = _ := by simp only [eq_stackAddr_iff]

end Sys2Proof.Machine
end

section
/-! PROOFS. What an instruction can change: the registers and flags it lists and nothing else of the CPU's own, a transfer in
flight or not. `Frame` is that relation between two states, with one rule for each way an instruction writes; the case analysis
over the instructions is made once, and both tables of writers are read off it (spec/10_state.md R11, R15, R16). -/

namespace Sys2Proof.Machine

/-- The CPU's byte registers but P (R11, R16). -/
inductive Reg where
  | a | x | y | sp

/-- From `s` to `t` only the listed registers and flags may have changed, besides PC, CYC, the memories, the devices and the
model's own counters. -/
structure Frame (regs : List Reg) (flags : List Flag) (s t : State) : Prop where
  a : .a ∉ regs → t.a = s.a
  x : .x ∉ regs → t.x = s.x
  y : .y ∉ regs → t.y = s.y
  sp : .sp ∉ regs → t.sp = s.sp
  flag : ∀ f, f ∉ flags → getFlag t.p f = getFlag s.p f
  cfg : t.cfg = s.cfg
  lines : t.lines = s.lines
  nmiLatch : t.nmiLatch = s.nmiLatch
  script : t.script = s.script

namespace Frame

variable {regs : List Reg} {flags : List Flag} {s t u : State}

theorem of_sameCpu (k : SameCpu s t) : Frame regs flags s t :=
  ⟨fun _ => k.a, fun _ => k.x, fun _ => k.y, fun _ => k.sp, fun f _ => congrArg (getFlag · f) k.p, k.cfg, k.lines,
    k.nmiLatch, k.script⟩

theorem refl (s : State) : Frame regs flags s s := of_sameCpu (SameCpu.refl s)

theorem trans (h : Frame regs flags s t) (k : Frame regs flags t u) : Frame regs flags s u :=
  ⟨fun n => (k.a n).trans (h.a n), fun n => (k.x n).trans (h.x n), fun n => (k.y n).trans (h.y n),
    fun n => (k.sp n).trans (h.sp n), fun f n => (k.flag f n).trans (h.flag f n), k.cfg.trans h.cfg,
    k.lines.trans h.lines, k.nmiLatch.trans h.nmiLatch, k.script.trans h.script⟩

theorem charge (h : Frame regs flags s t) (n : Nat) : Frame regs flags s (t.charge n) := { h with }

theorem setPc (h : Frame regs flags s t) (v : Addr) : Frame regs flags s (t.setPc v) := { h with }

theorem setA (h : Frame regs flags s t) (hr : .a ∈ regs) (v : Byte) : Frame regs flags s (t.setA v) :=
  { h with a := absurd hr }

theorem setX (h : Frame regs flags s t) (hr : .x ∈ regs) (v : Byte) : Frame regs flags s (t.setX v) :=
  { h with x := absurd hr }

theorem setY (h : Frame regs flags s t) (hr : .y ∈ regs) (v : Byte) : Frame regs flags s (t.setY v) :=
  { h with y := absurd hr }

theorem setSp (h : Frame regs flags s t) (hr : .sp ∈ regs) (v : Byte) : Frame regs flags s (t.setSp v) :=
  { h with sp := absurd hr }

/-- A new status byte that differs from the first one in listed flags alone. -/
theorem setP (h : Frame regs flags s t) {p : Byte} (hp : ∀ f, f ∉ flags → getFlag p f = getFlag s.p f) :
    Frame regs flags s (t.setP p) :=
  { h with flag := hp }

/-- A status byte whose changes are known as a list of flags with their values. -/
theorem setFlags (h : Frame regs flags s t) {p : Byte} {l : List (Flag × Bool)} (hp : flagsBecome t.p p l)
    (hl : l.map Prod.fst ⊆ flags) : Frame regs flags s (t.setP p) :=
  h.setP fun f hf => (hp.2 f fun hm => hf (hl hm)).trans (h.flag f hf)

theorem setNZ (h : Frame regs flags s t) (hl : [.n, .z] ⊆ flags) (v : Byte) : Frame regs flags s (t.setNZ v) :=
  h.setFlags (flagsBecome_setNZ t.p v) hl

end Frame

/-! ### The operations that instructions share -/

section Operations

variable {regs : List Reg} {flags : List Flag} {s t : State}

theorem frame_readOperand (m : Mode) (s : State) : Frame regs flags s (readOperand m s).st := by
  rw [readOperand_eq]
  exact .of_sameCpu (operandAt_sameCpu m s)

theorem frame_push (hr : .sp ∈ regs) (v : Byte) (s : State) : Frame regs flags s (push v s) :=
  (Frame.of_sameCpu (memWrite_sameCpu _ v s)).setSp hr _

theorem frame_pull (hr : .sp ∈ regs) (s : State) : Frame regs flags s (pull s).2 :=
  ((Frame.refl s).setSp hr _).trans (.of_sameCpu (memRead_sameCpu _ _))

theorem frame_push16 (hr : .sp ∈ regs) (a : Addr) (s : State) : Frame regs flags s (push16 a s) :=
  (frame_push hr _ s).trans (frame_push hr _ _)

theorem frame_pull16 (hr : .sp ∈ regs) (s : State) : Frame regs flags s (pull16 s).2 :=
  (frame_pull hr s).trans (frame_pull hr _)

theorem frame_branch (cond : Bool) (rel8 : Byte) (s : State) : Frame regs flags s (branch cond rel8 s) := by
  rw [branch]
  split
  · exact ((Frame.refl s).setPc _).charge _
  · exact (Frame.refl s).charge _

/-- The registers that a read-modify-write can change: A, in the accumulator form. -/
def modifiedRegs : Mode → List Reg
  | .acc => [.a]
  | _ => []

theorem frame_modifyOperand {f : Byte → Byte × Byte} {s : State}
    (hp : ∀ v, ∃ l, flagsBecome s.p (f v).2 l ∧ l.map Prod.fst ⊆ flags) (m : Mode) (cost : Bool → Nat) :
    Frame (modifiedRegs m) flags s (modifyOperand m f cost s) := by
  have hf (v : Byte) (g : Flag) (hg : g ∉ flags) : getFlag (f v).2 g = getFlag s.p g := by
    obtain ⟨l, hp, hl⟩ := hp v
    exact hp.2 g fun hm => hg (hl hm)
  cases m with
  | acc => exact (((Frame.refl s).setP (hf s.a)).setA (.head _) _).charge _
  | _ =>
    exact (((Frame.of_sameCpu ((effAddr_sameCpu _ s).trans (memRead_sameCpu _ _))).setP (hf _)).trans
      (.of_sameCpu (memWrite_sameCpu _ _ _))).charge _

/-- Taking an exception sets I, and clears D if INT_CLEARS_D. -/
theorem frame_takeException (hr : .sp ∈ regs) (hi : .i ∈ flags) (hd : s.cfg.intClearsD = true → .d ∈ flags)
    (ret : Addr) (status : Byte) (vec : Addr) : Frame regs flags s (takeException ret status vec s) := by
  have hs : Frame regs flags s (push status (push16 ret s)) := (frame_push16 hr ret s).trans (frame_push hr status _)
  rw [takeException]
  generalize push status (push16 ret s) = s1 at hs ⊢
  have hp : Frame regs flags s (s1.setP (entryFlags s1.cfg s1.p)) := by
    refine hs.setFlags (flagsBecome_entryFlags s1.cfg s1.p) ?_
    rw [hs.cfg]
    split
    · next h => simp [hi, hd h]
    · simp [hi]
  exact ((hp.trans (.of_sameCpu (read16_sameCpu vec _))).setPc _).charge 7

/-- BRK sets B and U in the register before its entry (R173). -/
theorem frame_softwareInterrupt (hr : .sp ∈ regs) (hf : [.u, .b, .i] ⊆ flags)
    (hd : s.cfg.intClearsD = true → .d ∈ flags) : Frame regs flags s (softwareInterrupt s) := by
  obtain ⟨hu, hb, hi⟩ : .u ∈ flags ∧ .b ∈ flags ∧ .i ∈ flags := by simpa using hf
  have hp := flagsBecome_cons (flagsBecome_setFlag s.p .b true) .u true (by decide)
  simp only [softwareInterrupt]
  refine ((Frame.refl s).setFlags hp (by simp [hu, hb])).trans (frame_takeException hr hi ?_ _ _ _)
  exact hd

theorem frame_returnFromException (hr : .sp ∈ regs) (hp : ∀ f, f ∈ flags) (s : State) :
    Frame regs flags s (returnFromException s) := by
  rw [returnFromException]
  exact ((((frame_pull hr s).setP fun f hf => absurd (hp f) hf).trans (frame_pull16 hr _)).setPc _).charge 6

end Operations

/-! ### Every instruction -/

/-- The registers that an instruction can change (R11, R16). A read-modify-write is given A in its accumulator form, which TSB and
TRB do not have. -/
def regsWritten : Instr → List Reg
  | .lda _ | .ora _ | .and _ | .eor _ | .adc _ | .sbc _ | .txa | .tya => [.a]
  | .tsb m | .trb m | .asl m | .lsr m | .rol m | .ror m | .inc m | .dec m => modifiedRegs m
  | .ldx _ | .inx | .dex | .tax | .tsx => [.x]
  | .ldy _ | .iny | .dey | .tay => [.y]
  | .pla => [.a, .sp]
  | .plx => [.x, .sp]
  | .ply => [.y, .sp]
  | .pha | .php | .phx | .phy | .plp | .jsr _ | .rts | .rti | .brk | .txs => [.sp]
  | _ => []

/-- Every instruction, in every state and whatever its operands, answers a next state in which only the registers of
`regsWritten` and the flags of Table 10-1 have changed. -/
theorem exec_frame (s : State) (i : Instr) :
    ∃ t, exec i s = .next t ∧ Frame (regsWritten i) (flagsWritten s.cfg i) s t := by
  have hnz : [Flag.n, .z] ⊆ [.n, .z] := .refl _
  have hznc : [Flag.z, .n, .c] ⊆ [.n, .z, .c] := by decide
  have hzncv : [Flag.z, .n, .c, .v] ⊆ [.n, .v, .z, .c] := by decide
  have hvnz : [Flag.v, .n, .z] ⊆ [.n, .v, .z] := by decide
  have hall (f : Flag) : f ∈ [Flag.n, .v, .u, .b, .d, .i, .z, .c] := by cases f <;> decide
  cases i with
  | lda m | ora m | and m | eor m =>
    exact ⟨_, rfl, (((frame_readOperand m s).setA (.head _) _).setNZ hnz _).charge _⟩
  | ldx m => exact ⟨_, rfl, (((frame_readOperand m s).setX (.head _) _).setNZ hnz _).charge _⟩
  | ldy m => exact ⟨_, rfl, (((frame_readOperand m s).setY (.head _) _).setNZ hnz _).charge _⟩
  | adc m | sbc m =>
    exact ⟨_, rfl, (((frame_readOperand m s).setA (.head _) _).setFlags (flagsBecome_aluFlags _ _) hzncv).charge _⟩
  | cmp m | cpx m | cpy m =>
    exact ⟨_, rfl, ((frame_readOperand m s).setFlags (flagsBecome_compareFlags _ _ _) (.refl _)).charge _⟩
  | bit m =>
    refine ⟨_, rfl, ?_⟩
    show Frame [] (if m.form = .imm then [.z] else [.n, .v, .z]) s _
    split
    · exact ((frame_readOperand m s).setFlags (flagsBecome_setFlag _ .z _) (.refl _)).charge _
    · exact ((frame_readOperand m s).setFlags (flagsBecome_bitFlags _ _ _) hvnz).charge _
  | sta m | stx m | sty m | stz m => exact ⟨_, rfl, (Frame.of_sameCpu (storeOperand_sameCpu m _ s)).charge _⟩
  | tsb m | trb m =>
    refine ⟨_, rfl, frame_modifyOperand (fun v => ?_) m _⟩
    exact ⟨_, flagsBecome_setFlag s.p .z _, .refl _⟩
  | inc m | dec m =>
    refine ⟨_, rfl, frame_modifyOperand (fun v => ?_) m _⟩
    exact ⟨_, flagsBecome_setNZ s.p _, .refl _⟩
  | asl m | lsr m | rol m | ror m =>
    refine ⟨_, rfl, frame_modifyOperand (fun v => ?_) m _⟩
    exact ⟨_, flagsBecome_shiftFlags s.p _, hznc⟩
  | bpl r | bmi r | bvc r | bvs r | bcc r | bcs r | bne r | beq r | bra r => exact ⟨_, rfl, frame_branch _ r s⟩
  | jmp m => exact ⟨_, rfl, ((Frame.of_sameCpu (effAddr_sameCpu m s)).setPc _).charge _⟩
  | inx | dex | tax | tsx => exact ⟨_, rfl, (((Frame.refl s).setX (.head _) _).setNZ hnz _).charge _⟩
  | iny | dey | tay => exact ⟨_, rfl, (((Frame.refl s).setY (.head _) _).setNZ hnz _).charge _⟩
  | txa | tya => exact ⟨_, rfl, (((Frame.refl s).setA (.head _) _).setNZ hnz _).charge _⟩
  | txs => exact ⟨_, rfl, ((Frame.refl s).setSp (.head _) _).charge _⟩
  | pha | php | phx | phy => exact ⟨_, rfl, (frame_push (.head _) _ s).charge _⟩
  | pla => exact ⟨_, rfl, (((frame_pull (.tail _ (.head _)) s).setA (.head _) _).setNZ hnz _).charge _⟩
  | plx => exact ⟨_, rfl, (((frame_pull (.tail _ (.head _)) s).setX (.head _) _).setNZ hnz _).charge _⟩
  | ply => exact ⟨_, rfl, (((frame_pull (.tail _ (.head _)) s).setY (.head _) _).setNZ hnz _).charge _⟩
  | plp => exact ⟨_, rfl, ((frame_pull (.head _) s).setP fun f hf => absurd (hall f) hf).charge _⟩
  | jsr a => exact ⟨_, rfl, ((frame_push16 (.head _) _ s).setPc _).charge _⟩
  | rts => exact ⟨_, rfl, ((frame_pull16 (.head _) s).setPc _).charge _⟩
  | rti => exact ⟨_, rfl, frame_returnFromException (.head _) hall s⟩
  | brk =>
    refine ⟨_, rfl, frame_softwareInterrupt (.head _) ?_ fun hd => ?_⟩
    · show _ ⊆ if s.cfg.intClearsD then [Flag.u, .b, .i, .d] else [.u, .b, .i]
      split <;> decide
    · show .d ∈ if s.cfg.intClearsD then [Flag.u, .b, .i, .d] else [.u, .b, .i]
      rw [if_pos hd]
      decide
  | clc | sec | cli | sei | cld | sed | clv =>
    exact ⟨_, rfl, ((Frame.refl s).setFlags (flagsBecome_setFlag _ _ _) (.refl _)).charge _⟩
  | nop => exact ⟨_, rfl, (Frame.refl s).charge _⟩
  -- a reserved opcode moves PC and charges its cycles
  | _ => exact ⟨_, rfl, ((Frame.refl s).setPc _).charge _⟩

theorem frame_of_exec {i : Instr} {s t : State} (h : exec i s = .next t) :
    Frame (regsWritten i) (flagsWritten s.cfg i) s t := by
  obtain ⟨u, hu, hf⟩ := exec_frame s i
  cases hu.symm.trans h
  exact hf

/-- Settles O60: the frame of an instruction lists the flags of Table 10-1. -/
theorem flagWriters : Obligations.FlagWriters :=
  fun _ _ _ f h hf => (frame_of_exec h).flag f hf

theorem mem_modifiedRegs {r : Reg} {m : Mode} : r ∈ modifiedRegs m ↔ m = .acc ∧ r = .a := by
  cases m <;> simp [modifiedRegs]

/-- Which well-formed instructions list A: TSB and TRB have no accumulator form. -/
theorem eq_of_a_mem_regsWritten {i : Instr} (hw : i.wf = true) (h : .a ∈ regsWritten i) :
    (∃ m, i = .lda m ∨ i = .ora m ∨ i = .and m ∨ i = .eor m ∨ i = .adc m ∨ i = .sbc m) ∨ i = .pla ∨ i = .txa ∨ i = .tya ∨
      i = .asl .acc ∨ i = .lsr .acc ∨ i = .rol .acc ∨ i = .ror .acc ∨ i = .inc .acc ∨ i = .dec .acc := by
  cases i with
  | lda m | ora m | and m | eor m | adc m | sbc m | pla | txa | tya => simp
  | asl m | lsr m | rol m | ror m | inc m | dec m => simp [mem_modifiedRegs.1 h]
  | tsb m | trb m =>
    rw [(mem_modifiedRegs.1 h).1] at hw
    exact absurd hw (by decide)
  | _ => nomatch h

theorem eq_of_x_mem_regsWritten {i : Instr} (h : .x ∈ regsWritten i) :
    (∃ m, i = .ldx m) ∨ i = .inx ∨ i = .dex ∨ i = .plx ∨ i = .tax ∨ i = .tsx := by
  cases i with
  | ldx m | inx | dex | plx | tax | tsx => simp
  | asl m | lsr m | rol m | ror m | inc m | dec m | tsb m | trb m => nomatch (mem_modifiedRegs.1 h).2
  | _ => nomatch h

theorem eq_of_y_mem_regsWritten {i : Instr} (h : .y ∈ regsWritten i) :
    (∃ m, i = .ldy m) ∨ i = .iny ∨ i = .dey ∨ i = .ply ∨ i = .tay := by
  cases i with
  | ldy m | iny | dey | ply | tay => simp
  | asl m | lsr m | rol m | ror m | inc m | dec m | tsb m | trb m => nomatch (mem_modifiedRegs.1 h).2
  | _ => nomatch h

theorem eq_of_sp_mem_regsWritten {i : Instr} (h : .sp ∈ regsWritten i) :
    i = .pha ∨ i = .php ∨ i = .phx ∨ i = .phy ∨ i = .pla ∨ i = .plp ∨ i = .plx ∨ i = .ply ∨ (∃ a, i = .jsr a) ∨ i = .rts ∨
      i = .rti ∨ i = .brk ∨ i = .txs := by
  cases i with
  | pha | php | phx | phy | pla | plp | plx | ply | jsr a | rts | rti | brk | txs => simp
  | asl m | lsr m | rol m | ror m | inc m | dec m | tsb m | trb m => nomatch (mem_modifiedRegs.1 h).2
  | _ => nomatch h

/-- Settles O59: a register that changes is one that the frame of the instruction lists. -/
theorem registerWriters : Obligations.RegisterWriters := by
  intro i s t hw h
  have hf := frame_of_exec h
  refine ⟨fun hn => ?_, fun hn => ?_, fun hn => ?_, fun hn => ?_, hf.cfg, hf.lines, hf.nmiLatch, hf.script⟩
  · exact eq_of_a_mem_regsWritten hw (not_imp_comm.1 hf.a hn)
  · exact eq_of_x_mem_regsWritten (not_imp_comm.1 hf.x hn)
  · exact eq_of_y_mem_regsWritten (not_imp_comm.1 hf.y hn)
  · exact eq_of_sp_mem_regsWritten (not_imp_comm.1 hf.sp hn)

end Sys2Proof.Machine
end

section
/-! PROOFS. The address decoder, the CPU's Bus accesses and the bytes of both memories (spec/20_memory.md R41 to R51,
spec/10_state.md R22, R23). -/

/-! ### The windows are disjoint and aligned, so the order in which they are tried does not matter -/

namespace Sys2Proof.Machine

theorem inWindow_unique {cfg : Config} (hc : configOk cfg = true) {j k : ViaId} {a : Addr}
    (hj : inWindow cfg j a = true) (hk : inWindow cfg k a = true) : j = k := by
  by_contra hne
  have hd := configOk_disjoint hc hne
  rw [inWindow_iff] at hj hk
  omega

theorem decodeAddr_chip {cfg : Config} (hc : configOk cfg = true) {c : ViaId} {a : Addr} (h : inWindow cfg c a = true) :
    decodeAddr cfg a = .chip c (a.setWidth 4) := by
  have hother {k : ViaId} (hne : k ≠ c) : inWindow cfg k a = false :=
    Bool.eq_false_iff.2 fun hk => hne (inWindow_unique hc hk h)
  cases c with
  | via1 => simp [decodeAddr, h]
  | via2 => simp [decodeAddr, h, hother (k := .via1)]
  | via3 => simp [decodeAddr, h, hother (k := .via1), hother (k := .via2)]

/-- A window's base is a multiple of 16, so the low four address bits are the offset from it. -/
theorem setWidth_eq_offset {a b : Addr} (hb : b.toNat % 16 = 0) (h : b.toNat ≤ a.toNat) :
    a.setWidth 4 = BitVec.ofNat 4 (a.toNat - b.toNat) := by
  apply BitVec.eq_of_toNat_eq
  simp only [BitVec.toNat_setWidth, BitVec.toNat_ofNat]
  omega

/-- Settles O11: an address lies in one window at most, and R7 keeps the windows off page zero, the stack page and the ROM
region, where the vectors are. -/
theorem addressDecoder : Obligations.AddressDecoder := by
  intro cfg a hc
  refine ⟨fun c hlo hhi => ?_, fun hout => decodeAddr_plain fun k => ?_, fun hpage => ?_, fun v hv ha => ?_⟩
  · obtain ⟨haligned, -⟩ := windowOk_bounds (configOk_window hc c)
    rw [decodeAddr_chip hc (inWindow_iff.2 ⟨hlo, hhi⟩), setWidth_eq_offset haligned hlo]
  · have := hout k
    rw [Bool.eq_false_iff, ne_eq, inWindow_iff]
    omega
  · refine decodeAddr_plain_of_page hc ?_
    rcases hpage with h | h
    · have : a.toNat / 256 = 0 := by rw [← hi8_toNat, h]; rfl
      omega
    · exact .inr (.inr (by rw [← hi8_toNat, h]))
  · obtain ⟨hrom, hlast⟩ := configOk_vector hc hv
    refine decodeAddr_plain_of_page hc (.inr (.inl ?_))
    rcases ha with rfl | rfl
    · exact hrom
    · rw [BitVec.toNat_add_of_lt hlast]
      exact Nat.le_succ_of_le hrom

/-! ### The CPU's accesses -/

/-- Settles O12: the DMA agent's turn keeps the parameters (`dmaTurn_cfg`), so the access after it goes where the address led
before it. -/
theorem cpuAccess : Obligations.CpuAccess := by
  intro s a v
  refine ⟨fun c o h => ?_, fun h => ?_, dmaTurn_idle⟩
  all_goals simp [memRead, memWrite, busRead, busWrite, h]

/-- Settles O13, from the frames of an access and of a read. -/
theorem accessFrame : Obligations.AccessFrame := by
  intro s a v m
  refine ⟨memRead_sameCpu a s, memWrite_sameCpu a v s, effAddr_sameCpu m s, operandAt_sameCpu m s, fun hidle => ?_⟩
  have hread := memRead_sameStorage hidle a
  have hoperand := operandAt_sameStorage hidle m
  exact ⟨hread.mem, hread.store, hread.sc, hoperand.mem, hoperand.store, hoperand.sc⟩

/-! ### Read after write -/

/-- Writing the byte that is there changes nothing: a memory in canonical form is determined by what it reads as. -/
theorem Memory.write_read_self {size : Nat} {m : Memory} (hm : m.wf size = true) (a : Nat) : m.write a (m.read a) = m := by
  obtain ⟨hrise, -⟩ := wf_iff.1 hm
  refine eq_of_read (risingFrom_write hrise (Nat.zero_le a) _) hrise fun b => ?_
  rw [read_write hrise]
  split
  · next h => rw [h]
  · rfl

/-- Settles O14: both memories obey the laws of one sparse memory. -/
theorem ramReadAfterWrite : Obligations.RamReadAfterWrite := by
  refine fun s v => ⟨fun hm a => ⟨fun b => ramRead_ramWrite hm a b v, rfl, ramWrite_wf hm a v, ?_⟩,
    fun hst k => ⟨fun j => ?_, Memory.wf_write hst k.isLt v, ?_⟩⟩
  · rintro rfl
    exact Memory.write_read_self hm a.toNat
  · simp only [Memory.read_write_wf hst, ← BitVec.toNat_inj]
  · rintro rfl
    exact Memory.write_read_self hst k.toNat

end Sys2Proof.Machine
end

section
/-! PROOFS. Encoding and decoding are inverse to each other (spec/30_encoding.md R70 to R72, R102, Tables 30-2 and 30-3). -/

namespace Sys2Proof.Machine

/-! ### Every instruction: its opcode and its operand bytes -/

/-- The laws of `Laws.Encoding`, constructor by constructor; an instruction without operand, a branch and a reserved opcode
decode to themselves by computation. -/
theorem encoding_statement (i : Instr) : Laws.Encoding.Statement i := by
  cases i with
  | lda m => exact Laws.Encoding.lda m
  | ldx m => exact Laws.Encoding.ldx m
  | ldy m => exact Laws.Encoding.ldy m
  | sta m => exact Laws.Encoding.sta m
  | stx m => exact Laws.Encoding.stx m
  | sty m => exact Laws.Encoding.sty m
  | stz m => exact Laws.Encoding.stz m
  | ora m => exact Laws.Encoding.ora m
  | and m => exact Laws.Encoding.and m
  | eor m => exact Laws.Encoding.eor m
  | adc m => exact Laws.Encoding.adc m
  | sbc m => exact Laws.Encoding.sbc m
  | bit m => exact Laws.Encoding.bit m
  | tsb m => exact Laws.Encoding.tsb m
  | trb m => exact Laws.Encoding.trb m
  | asl m => exact Laws.Encoding.asl m
  | lsr m => exact Laws.Encoding.lsr m
  | rol m => exact Laws.Encoding.rol m
  | ror m => exact Laws.Encoding.ror m
  | cmp m => exact Laws.Encoding.cmp m
  | cpx m => exact Laws.Encoding.cpx m
  | cpy m => exact Laws.Encoding.cpy m
  | inc m => exact Laws.Encoding.inc m
  | dec m => exact Laws.Encoding.dec m
  | jmp m => exact Laws.Encoding.jmp m
  | jsr a => exact Laws.Encoding.jsr a
  | _ => exact fun _ => ⟨_, rfl, rfl, rfl⟩

theorem operandBytes_reserved {i : Instr} (h : i.reservedOpcode? ≠ none) : i.operandBytes = [] := by
  unfold Instr.reservedOpcode? at h
  split at h
  case h_79 => exact absurd rfl h
  all_goals rfl

theorem skipCount_not_reserved {i : Instr} (h : i.reservedOpcode? = none) (t : List ReservedRow) : i.skipCount t = 0 := by
  rw [Instr.skipCount, h]

theorem skipCount_le_two (t : List ReservedRow) (i : Instr) : i.skipCount t ≤ 2 := by
  unfold Instr.skipCount
  split
  · exact Nat.le_of_lt_succ (Fin.isLt _)
  · exact Nat.zero_le 2

/-! ### Every opcode value: Table 30-2 against Table 30-3 -/

/-- Settles O3, opcode by opcode: the cell of Table 30-2 names an instruction whose row of Table 30-3 lists that opcode. Its
operand bytes are the bytes after the opcode, of which a 16-bit operand is put together and taken apart again. -/
theorem opcodeSelectsInstruction : Obligations.OpcodeSelectsInstruction := by
  intro op b1 b2
  have hword : [lo8 (mk16 b2 b1), hi8 (mk16 b2 b1)] = [b1, b2] := by rw [lo8_mk16, hi8_mk16]
  obtain ⟨n, hn, rfl⟩ : ∃ n < 256, BitVec.ofNat 8 n = op := ⟨op.toNat, op.isLt, BitVec.ofNat_toNat 8 op⟩
  interval_cases n
  all_goals
    refine ⟨rfl, rfl, ?_⟩
    first
      | rfl
      | exact hword

/-! ### The length of an instruction is a function of its opcode -/

theorem operandCount_le_two (op : Byte) : operandCount op ≤ 2 := by
  rcases operandCount_cases op with ⟨h, -⟩ | ⟨h, -⟩ | h <;> omega

theorem decodeOpcode_of_operandCount_zero {op : Byte} (h : operandCount op = 0) (b1 b2 : Byte) :
    decodeOpcode op b1 b2 = decodeOpcode op 0 0 := by
  rcases operandCount_cases op with ⟨-, hi⟩ | ⟨h1, -⟩ | h2
  · exact hi b1 b2
  · omega
  · omega

/-- A reserved opcode fetches no operand byte (R189). -/
theorem operandCount_of_reserved {op b1 b2 : Byte} (h : (decodeOpcode op b1 b2).reservedOpcode? ≠ none) :
    operandCount op = 0 := by
  rw [← decodeOpcode_operandBytes_length op b1 b2, operandBytes_reserved h, List.length_nil]

theorem skipCount_of_operandCount_pos {op : Byte} (h : operandCount op ≠ 0) (t : List ReservedRow) (b1 b2 : Byte) :
    (decodeOpcode op b1 b2).skipCount t = 0 :=
  skipCount_not_reserved (not_not.1 (mt operandCount_of_reserved h)) t

theorem skipCount_decodeOpcode (t : List ReservedRow) (op b1 b2 : Byte) :
    (decodeOpcode op b1 b2).skipCount t = (decodeOpcode op 0 0).skipCount t := by
  by_cases h : operandCount op = 0
  · rw [decodeOpcode_of_operandCount_zero h]
  · rw [skipCount_of_operandCount_pos h, skipCount_of_operandCount_pos h]

/-- No instruction is longer than three bytes: it fetches at most two bytes after the opcode, or skips at most two. -/
theorem operandCount_add_skipCount_le_two (t : List ReservedRow) (op b1 b2 : Byte) :
    operandCount op + (decodeOpcode op b1 b2).skipCount t ≤ 2 := by
  by_cases h : operandCount op = 0
  · rw [h, Nat.zero_add]
    exact skipCount_le_two t _
  · rw [skipCount_of_operandCount_pos h]
    exact operandCount_le_two op

/-! ### Decoding a list of bytes -/

/-- What a list of bytes decodes to: what its opcode makes of the next two bytes, if the list holds all the bytes that instruction
fetches or skips. -/
theorem decodeWith_eq_ok_iff {t : List ReservedRow} {op : Byte} {tail rest : List Byte} {i : Instr} :
    decodeWith t (op :: tail) = .ok (i, rest) ↔
      i = decodeOpcode op (tail.getD 0 0) (tail.getD 1 0) ∧ operandCount op + i.skipCount t ≤ tail.length ∧
        rest = tail.drop (operandCount op + i.skipCount t) := by
  have hskip := skipCount_decodeOpcode t op (tail.getD 0 0) (tail.getD 1 0)
  rw [decodeWith]
  split
  · next hshort =>
    refine ⟨nofun, ?_⟩
    rintro ⟨rfl, hlong, -⟩
    omega
  · next hlong =>
    simp only [Except.ok.injEq, Prod.mk.injEq]
    constructor
    · rintro ⟨rfl, rfl⟩
      exact ⟨rfl, by omega, by rw [hskip]⟩
    · rintro ⟨rfl, -, rfl⟩
      exact ⟨rfl, by rw [hskip]⟩

/-- An instruction is what its opcode and its operand bytes decode to, whatever bytes follow. -/
theorem decodeOpcode_getD_append {op : Byte} {operands : List Byte} (h : operands.length = operandCount op) (l : List Byte) :
    decodeOpcode op ((operands ++ l).getD 0 0) ((operands ++ l).getD 1 0) =
      decodeOpcode op (operands.getD 0 0) (operands.getD 1 0) := by
  rcases operandCount_cases op with ⟨-, hi⟩ | ⟨h1, hi⟩ | h2
  · rw [hi, hi (operands.getD 0 0)]
  · rw [hi, hi (operands.getD 0 0), List.getD_append _ _ _ 0 (by omega)]
  · rw [List.getD_append _ _ _ 0 (by omega), List.getD_append _ _ _ 1 (by omega)]

/-- Settles O1: the operand bytes give the instruction back (`encoding_statement`), and its bytes are as many as its opcode says. -/
theorem decodeEncodeRoundTrip : Obligations.DecodeEncodeRoundTrip := by
  intro t i rest hw
  obtain ⟨op, hop, hlen, hdec⟩ := encoding_statement i hw
  have hbytes : encodeWith t i ++ rest = op :: (i.operandBytes ++ (List.replicate (i.skipCount t) 0 ++ rest)) := by
    simp only [encodeWith, hop, List.cons_append, List.append_assoc]
  rw [hbytes, decodeWith_eq_ok_iff]
  refine ⟨?_, ?_, ?_⟩
  · rw [decodeOpcode_getD_append hlen, hdec]
  · simp only [List.length_append, List.length_replicate]
    omega
  · rw [← hlen, ← List.append_assoc, List.drop_left' (by simp)]

/-- The first bytes of a list that is long enough, two at most, as `decodeWith` reads them. -/
theorem take_getD_eq_take {n : Nat} (l : List Byte) (h2 : n ≤ 2) (hl : n ≤ l.length) :
    [l.getD 0 0, l.getD 1 0].take n = l.take n := by
  match l, hl with
  | [], hl => rw [Nat.le_zero.1 hl]; rfl
  | [a], (hl : n ≤ 1) => interval_cases n <;> rfl
  | a :: b :: l, _ => interval_cases n <;> rfl

/-- Settles O2: what decodes is what the opcode selects (`opcodeSelectsInstruction`), its operand bytes are the list's first bytes,
and three bytes are always enough. -/
theorem decodedBytesReencode : Obligations.DecodedBytesReencode := by
  refine fun t op tail => ⟨fun i rest h => ?_, fun h => ?_⟩
  · obtain ⟨hi, hlong, hrest⟩ := decodeWith_eq_ok_iff.1 h
    obtain ⟨hw, hop, hoperands⟩ := opcodeSelectsInstruction op (tail.getD 0 0) (tail.getD 1 0)
    rw [← hi] at hw hop hoperands
    refine ⟨hw, hop, fun hr => ?_, fun hr => ?_⟩
    · have hskip := skipCount_not_reserved hr t
      rw [hskip, Nat.add_zero] at hlong hrest
      rw [take_getD_eq_take tail (operandCount_le_two op) hlong] at hoperands
      simp only [encodeWith, hop, hoperands, hskip, hrest, List.replicate_zero, List.append_nil, List.cons_append,
        List.take_append_drop]
    · rw [hi] at hr
      rw [hrest, operandCount_of_reserved hr, Nat.zero_add]
  · exact ⟨_, _, decodeWith_eq_ok_iff.2 ⟨rfl, (operandCount_add_skipCount_le_two t op _ _).trans h, rfl⟩⟩

end Sys2Proof.Machine
end

section
/-! PROOFS. The effective address of every addressing mode (spec/30_encoding.md R78 to R93). -/

namespace Sys2Proof.Machine

/-- A zero-page sum wraps modulo 256. -/
theorem zext16_add (z i : Byte) : zext16 (z + i) = BitVec.ofNat 16 ((z.toNat + i.toNat) % 256) := by
  rw [← BitVec.toNat_add, BitVec.ofNat_toNat, zext16]

/-- An indexed address wraps modulo 65536. -/
theorem add_zext16 (a : Addr) (i : Byte) : a + zext16 i = BitVec.ofNat 16 (a.toNat + i.toNat) := by
  rw [BitVec.ofNat_add, BitVec.ofNat_toNat, BitVec.ofNat_toNat, BitVec.setWidth_eq, zext16]

/-- Indexing crosses a page when the page of the wrapped sum is another one (R78). -/
theorem pageCross_add_zext16 (a : Addr) (i : Byte) :
    pageCross a (a + zext16 i) = decide (a.toNat / 256 ≠ (a.toNat + i.toNat) % 65536 / 256) := by
  rw [pageCross, hi8_bne, BitVec.toNat_add, zext16_toNat]

/-- An address plus an index, with its page crossing, as one effective address. -/
theorem indexed_eq (a : Addr) (i : Byte) (s : State) :
    (⟨a + zext16 i, pageCross a (a + zext16 i), s⟩ : Ea) =
      ⟨BitVec.ofNat 16 (a.toNat + i.toNat), decide (a.toNat / 256 ≠ (a.toNat + i.toNat) % 65536 / 256), s⟩ := by
  rw [pageCross_add_zext16, add_zext16]

/-- Settles O15: each mode by its own definition, pointers by `read16zp_quiet` and `read16_quiet`, sums by the lemmas above. -/
theorem effectiveAddresses : Obligations.EffectiveAddresses := by
  intro s z a hq
  refine ⟨rfl, ?zp, ?zpx, ?zpy, ?zpi, ?izx, ?izy, rfl, indexed_eq a s.x s, indexed_eq a s.y s, fun h0 h1 => ?ind,
    fun h0 h1 => ?iax⟩
  case zp => rw [BitVec.ofNat_toNat]; rfl
  case zpx => rw [← zext16_add]; rfl
  case zpy => rw [← zext16_add]; rfl
  case zpi => simp only [effAddr, read16zp_quiet hq]
  case izx => simp only [effAddr, read16zp_quiet hq, BitVec.ofNat_add, BitVec.ofNat_toNat, BitVec.setWidth_eq]
  case izy => simp only [effAddr, read16zp_quiet hq, indexed_eq]
  case ind => simp only [effAddr, read16_quiet hq h0 h1]
  case iax => simp only [effAddr, read16_quiet hq h0 h1]

end Sys2Proof.Machine
end

section
/-! PROOFS. Loads and stores (spec/40_load_store.md R110 to R116): what a load does with its operand, and the one write of a
store. -/

namespace Sys2Proof.Machine

/-! ### Loads -/

/-- A load into the register that `set` writes: the operand is read, then the register, N and Z and the cost are written. -/
theorem load_eq (set : State → Byte → State) (hp : ∀ s v, (set s v).p = s.p) (hcyc : ∀ s v, (set s v).cyc = s.cyc)
    (m : Mode) (s : State) :
    ((set (readOperand m s).st (readOperand m s).val).setNZ (readOperand m s).val).charge
        (readCycles m (readOperand m s).crossed) =
      { set (operandAt m s).2 (operandAt m s).1 with
        p := setNZ s.p (operandAt m s).1, cyc := s.cyc + readCycles m (effAddr m s).crossed } := by
  simp only [readOperand_eq, State.charge, State.setNZ, State.setP, hp, hcyc, operandAt_p, operandAt_cyc]

/-- Reading an operand with no transfer in flight changes no byte of Bus memory. -/
theorem ramRead_operandAt {s : State} (h : s.sc.busy = false) (m : Mode) (b : Addr) :
    ramRead b (operandAt m s).2 = ramRead b s := by
  rw [ramRead, (operandAt_sameStorage h m).mem, ramRead]

/-- Settles O29: each load is `load_eq` at its register, its flags are those of `setNZ`, and the operand read keeps memory. -/
theorem loads : Obligations.Loads := by
  intro m s
  have load (set hp hcyc) := congrArg (Host.Outcome.next : State → Result) (load_eq set hp hcyc m s)
  have hflags := flagsBecome_setNZ s.p (operandAt m s).1
  refine ⟨fun _ => ⟨_, ?lda, hflags⟩, fun _ => ⟨_, ?ldx, hflags⟩, fun _ => ⟨_, ?ldy, hflags⟩, fun h => ramRead_operandAt h m⟩
  case lda => exact load State.setA State.setA_p State.setA_cyc
  case ldx => exact load State.setX State.setX_p State.setX_cyc
  case ldy => exact load State.setY State.setY_p State.setY_cyc

/-! ### Stores -/

/-- A store and its cost: one write at the effective address, after what computing that address does. -/
theorem storeOperand_charge (m : Mode) (v : Byte) (n : Nat) (s : State) :
    (storeOperand m v s).charge n = { memWrite (effAddr m s).addr v (effAddr m s).st with cyc := s.cyc + n } := by
  simp only [State.charge, storeOperand, memWrite_cyc, effAddr_cyc]

/-- No store has one of the two forms whose pointer may lie outside page zero. -/
theorem form_of_store_wf {m : Mode} (h : (Instr.sta m).wf = true ∨ (Instr.stx m).wf = true ∨ (Instr.sty m).wf = true ∨
    (Instr.stz m).wf = true) : m.form ≠ .ind ∧ m.form ≠ .iax := by
  constructor <;> intro hf <;> simp [Instr.wf, Instr.mode?, Instr.allowedForms, hf] at h

/-- A write into a window with no transfer in flight is the VIA's register write (R45, R205). -/
theorem memWrite_chip {s : State} (h : s.sc.busy = false) {a : Addr} {c : ViaId} {o : BitVec 4}
    (ha : decodeAddr s.cfg a = .chip c o) (v : Byte) : memWrite a v s = viaWrite c o v s := by
  rw [memWrite_idle h, busWrite, ha]

/-- Settles O30: each store is `storeOperand` of its byte; with no transfer in flight computing the address changes nothing,
and the one write goes where the address decoder leads it. -/
theorem stores : Obligations.Stores := by
  intro m s
  have store (v : Byte) := congrArg (Host.Outcome.next : State → Result) (storeOperand_charge m v (storeCycles m) s)
  refine ⟨fun _ => store s.a, fun _ => store s.x, fun _ => store s.y, fun _ => store 0x00, fun hwf hq v => ?_⟩
  obtain ⟨hind, hiax⟩ := form_of_store_wf hwf
  rw [effAddr_st_quiet hq hind hiax]
  refine ⟨rfl, fun hplain hmem => ?plain, fun c o hchip => memWrite_chip hq.2 hchip v⟩
  rw [memWrite_plain hq.2 hplain]
  exact ⟨rfl, fun b => ramRead_ramWrite hmem _ b v⟩

end Sys2Proof.Machine
end

section
/-! PROOFS. The ALU group as instructions (spec/41_alu_logic.md R121 to R128): what each does with its operand, to the flags
and to memory. -/

namespace Sys2Proof.Machine

/-! ### ORA, AND and EOR -/

/-- A logic operation: the operand is read, then A, N and Z and the cost are written. -/
theorem logicOp_eq (f : Byte → Byte → Byte) (m : Mode) (s : State) :
    logicOp f m s =
      { (operandAt m s).2 with
        a := f s.a (operandAt m s).1, p := setNZ s.p (f s.a (operandAt m s).1),
        cyc := s.cyc + readCycles m (effAddr m s).crossed } := by
  simp only [logicOp, readOperand_eq, State.charge, State.setNZ, State.setP, State.setA, operandAt_a, operandAt_p,
    operandAt_cyc]

/-- Settles O31: each operation is `logicOp_eq` at its function, whose bits are the library's; the operand read keeps memory. -/
theorem logic : Obligations.Logic := by
  intro m s _
  have op (f : Byte → Byte → Byte) := congrArg (Host.Outcome.next : State → Result) (logicOp_eq f m s)
  have hflags := flagsBecome_setNZ s.p
  exact ⟨⟨_, _, op (· ||| ·), hflags _, fun _ => BitVec.getLsbD_or⟩,
    ⟨_, _, op (· &&& ·), hflags _, fun _ => BitVec.getLsbD_and⟩,
    ⟨_, _, op (· ^^^ ·), hflags _, fun _ => BitVec.getLsbD_xor⟩, fun h => ramRead_operandAt h m⟩

/-! ### ADC and SBC -/

/-- An addition or subtraction: the operand is read, then A, the four flags and the cost are written. -/
theorem arithOp_eq (f : Bool → Byte → Byte → Bool → AluOut) (m : Mode) (s : State) :
    arithOp f m s =
      (let o := f (getFlag s.p .d) s.a (operandAt m s).1 (getFlag s.p .c)
       { (operandAt m s).2 with
         a := o.res, p := aluFlags s.p o,
         cyc := s.cyc + readCycles m (effAddr m s).crossed + if o.extra then 1 else 0 }) := by
  simp only [arithOp, readOperand_eq, State.charge, State.setP, State.setA, operandAt_a, operandAt_p, operandAt_cyc, crossing,
    Nat.add_assoc]

/-- The flags of an addition or subtraction, with C and V before N and Z. -/
theorem flagsBecome_aluFlags_nzOf (p : Byte) (o : AluOut) :
    flagsBecome p (aluFlags p o) ([(.c, o.carry), (.v, o.overflow)] ++ nzOf o.res) :=
  flagsBecome_congr (flagsBecome_aluFlags p o) fun c => by simp [or_comm, or_left_comm, or_assoc]

/-- Settles O32: both are `arithOp_eq` at their function, with the flags of `aluFlags`; the operand read keeps memory. -/
theorem addAndSubtract : Obligations.AddAndSubtract := by
  intro m s _
  have op (f) := congrArg (Host.Outcome.next : State → Result) (arithOp_eq f m s)
  have hflags := flagsBecome_aluFlags_nzOf s.p
  exact ⟨⟨_, op adc, hflags _⟩, ⟨_, op sbc, hflags _⟩, fun h => ramRead_operandAt h m⟩

/-! ### BIT -/

/-- The status byte that BIT writes: in the immediate form only Z changes. -/
def bitTestFlags (m : Mode) (p a v : Byte) : Byte := if m.form = .imm then testZ p a v else bitFlags p a v

/-- BIT: the operand is read, then P and the cost are written. -/
theorem execBit_eq (m : Mode) (s : State) :
    execBit m s = .next
      { (operandAt m s).2 with
        p := bitTestFlags m s.p s.a (operandAt m s).1, cyc := s.cyc + readCycles m (effAddr m s).crossed } := by
  simp only [execBit, readOperand_eq, State.charge, State.setP, operandAt_a, operandAt_p, operandAt_cyc, bitTestFlags]

theorem flagsBecome_testZ (p a v : Byte) : flagsBecome p (testZ p a v) [(.z, decide (a &&& v = 0))] :=
  flagsBecome_setFlag p .z _

theorem flagsBecome_bitTestFlags (m : Mode) (p a v : Byte) :
    flagsBecome p (bitTestFlags m p a v) ((.z, decide (a &&& v = 0)) ::
      (if m.form = .imm then [] else [(.n, v.getLsbD 7), (.v, v.getLsbD 6)])) := by
  by_cases h : m.form = .imm
  · simp only [bitTestFlags, if_pos h]
    exact flagsBecome_testZ p a v
  · simp only [bitTestFlags, if_neg h]
    exact flagsBecome_congr (flagsBecome_bitFlags p a v) fun c => by simp [or_comm, or_assoc]

/-- Settles O35, from what BIT writes and the flags of its two forms; the operand read keeps memory. -/
theorem bitTest : Obligations.BitTest :=
  fun m s _ => ⟨_, execBit_eq m s, flagsBecome_bitTestFlags m s.p s.a _, fun h => ramRead_operandAt h m⟩

/-! ### TSB and TRB -/

/-- TSB and TRB have the zero-page and the absolute form alone. -/
theorem mode_of_tsb_wf {m : Mode} (h : (Instr.tsb m).wf = true) : (∃ z, m = .zp z) ∨ ∃ a, m = .abs a := by
  cases m with
  | zp z => exact .inl ⟨z, rfl⟩
  | abs a => exact .inr ⟨a, rfl⟩
  | _ => exact absurd h (by simp [Instr.wf, Instr.mode?, Instr.allowedForms, Mode.form])

/-- The forms of TSB and TRB are memory forms, none with a pointer. -/
theorem form_of_tsb_wf {m : Mode} (h : (Instr.tsb m).wf = true) : m ≠ .acc ∧ m.form ≠ .ind ∧ m.form ≠ .iax := by
  obtain ⟨z, rfl⟩ | ⟨a, rfl⟩ := mode_of_tsb_wf h <;> simp [Mode.form]

/-- The forms of TSB and TRB index nothing, so their cost knows no page crossing. -/
theorem shiftCycles_of_tsb_wf {m : Mode} (h : (Instr.tsb m).wf = true) (crossed : Bool) :
    shiftCycles m crossed = shiftCycles m false := by
  obtain ⟨z, rfl⟩ | ⟨a, rfl⟩ := mode_of_tsb_wf h <;> rfl

/-- The bits of `a` are cleared in `v` and no other bit changes. -/
theorem getLsbD_and_not (v a : Byte) (k : Nat) : (v &&& ~~~ a).getLsbD k = (v.getLsbD k && !a.getLsbD k) := by
  rw [BitVec.getLsbD_and, BitVec.getLsbD_not]
  by_cases hk : k < 8
  · simp [hk]
  · simp [hk, BitVec.getLsbD_of_ge v k (Nat.le_of_not_lt hk)]

/-- TSB and TRB but for their operation: one read and one write at the effective address, Z from the operand before the write. -/
theorem modifyOperand_of_tsb_wf {m : Mode} (h : (Instr.tsb m).wf = true) (g : Byte → Byte) (s : State) :
    modifyOperand m (fun v => (g v, testZ s.p s.a v)) (shiftCycles m) s =
      (let r := memRead (effAddr m s).addr (effAddr m s).st
       { memWrite (effAddr m s).addr (g r.1) { r.2 with p := testZ s.p s.a r.1 } with
          cyc := s.cyc + shiftCycles m false }) := by
  rw [modifyOperand_memory (form_of_tsb_wf h).1, shiftCycles_of_tsb_wf h]

/-- Settles O36: TSB and TRB are one read-modify-write at two functions, whose bits are the library's. -/
theorem testAndChangeBits : Obligations.TestAndChangeBits := by
  intro m s hwf
  obtain ⟨-, hind, hiax⟩ := form_of_tsb_wf hwf
  have op (g : Byte → Byte) := congrArg (Host.Outcome.next : State → Result) (modifyOperand_of_tsb_wf hwf g s)
  have hflags := flagsBecome_testZ s.p s.a
  have hmem := ramRead_modify (s := s) hind hiax
  exact ⟨⟨_, _, op (· ||| s.a), hflags _, fun _ => BitVec.getLsbD_or, hmem _ _⟩,
    ⟨_, _, op (· &&& ~~~ s.a), hflags _, getLsbD_and_not _ _, hmem _ _⟩⟩

end Sys2Proof.Machine
end

section
/-! PROOFS. Addition and subtraction as numbers (spec/41_alu_logic.md R120, R124, R125): the binary operations as integers, of
which subtraction is the addition of the complement, and the decimal ones digit by digit. -/

namespace Sys2Proof.Machine

/-! ### Binary -/

/-- Bit 7 of a byte, as a number. -/
theorem getLsbD_seven (v : Byte) : v.getLsbD 7 = decide (128 ≤ v.toNat) := by
  rw [← BitVec.msb_eq_getLsbD_last]
  exact BitVec.msb_eq_decide v

theorem adcBinary_res_toNat (a m : Byte) (cin : Bool) :
    (adcBinary a m cin).res.toNat = (a.toNat + m.toNat + cin.toNat) % 256 := BitVec.toNat_ofNat _ 8

theorem adcBinary_carry (a m : Byte) (cin : Bool) :
    (adcBinary a m cin).carry = decide (255 < a.toNat + m.toNat + cin.toNat) := rfl

/-- V is set exactly when the signed sum does not fit a byte. -/
theorem adcBinary_overflow (a m : Byte) (cin : Bool) :
    (adcBinary a m cin).overflow =
      decide (a.toInt + m.toInt + cin.toNat < -128 ∨ 127 < a.toInt + m.toInt + cin.toNat) := by
  have hr := adcBinary_res_toNat a m cin
  have ha := a.isLt
  have hm := m.isLt
  have hc := cin.toNat_le
  show ((a.getLsbD 7 == m.getLsbD 7) && ((adcBinary a m cin).res.getLsbD 7 != a.getLsbD 7)) = _
  simp only [getLsbD_seven, BitVec.toInt_eq_toNat_cond]
  rw [Bool.eq_iff_iff]
  simp only [Bool.and_eq_true, beq_iff_eq, bne_iff_ne, decide_eq_decide, decide_eq_true_eq, ne_eq]
  split <;> split <;> omega

/-- Binary subtraction adds the complement (R125). -/
theorem sbcBinary_eq_adcBinary (a m : Byte) (cin : Bool) : sbcBinary a m cin = adcBinary a (~~~ m) cin := by
  have hnot : m ^^^ 0xFF#8 = ~~~ m := BitVec.xor_allOnes
  have hsign : (a.getLsbD 7 == (~~~ m).getLsbD 7) = (a.getLsbD 7 != m.getLsbD 7) := by
    rw [BitVec.getLsbD_not]
    cases a.getLsbD 7 <;> cases m.getLsbD 7 <;> rfl
  simp only [sbcBinary, adcBinary, hnot, hsign]

/-- The complement as a signed number. -/
theorem toInt_not_byte (m : Byte) : (~~~ m).toInt = -m.toInt - 1 := by
  have hm := m.isLt
  simp only [BitVec.toInt_eq_toNat_cond, BitVec.toNat_not]
  split <;> split <;> omega

/-- Settles O33: addition field by field, and subtraction as the addition of the complement. -/
theorem binaryArithmetic : Obligations.BinaryArithmetic := by
  intro a m cin
  refine ⟨⟨adcBinary_res_toNat a m cin, adcBinary_carry a m cin, adcBinary_overflow a m cin, rfl⟩, ?_⟩
  have hm := m.isLt
  have hc := cin.toNat_le
  simp only [sbc, Bool.false_eq_true, if_false, sbcBinary_eq_adcBinary, adcBinary_res_toNat, adcBinary_carry,
    adcBinary_overflow, BitVec.toNat_not, toInt_not_byte, decide_eq_decide]
  refine ⟨?res, ?carry, ?overflow, rfl⟩
  all_goals omega

/-! ### Decimal -/

section Digits

variable {h l : Nat}

theorem toNat_bcd (hh : h < 10) (hl : l < 10) : (BitVec.ofNat 8 (16 * h + l)).toNat = 16 * h + l := by
  rw [BitVec.toNat_ofNat]
  omega

theorem loDigit_bcd (hh : h < 10) (hl : l < 10) : loDigit (BitVec.ofNat 8 (16 * h + l)) = l := by
  rw [loDigit, toNat_bcd hh hl]
  omega

theorem hiDigits_bcd (hh : h < 10) (hl : l < 10) : hiDigits (BitVec.ofNat 8 (16 * h + l)) = 16 * h := by
  rw [hiDigits, toNat_bcd hh hl]
  omega

end Digits

/-- Addition of two-digit numbers as on paper: the low digits and the carry in give the digit `lo` and the carry `k`, the high
digits and `k` give the digit `hi` and the carry `c`. -/
structure DigitSum (xh xl yh yl cin k lo c hi : Nat) : Prop where
  low : xl + yl + cin = 10 * k + lo
  high : xh + yh + k = 10 * c + hi
  lo_lt : lo < 10
  hi_lt : hi < 10

section DigitSums

variable {xh xl yh yl cin k lo c hi sum : Nat}

theorem exists_digitSum (xh xl yh yl cin : Nat) : ∃ k lo c hi, DigitSum xh xl yh yl cin k lo c hi :=
  ⟨_, _, _, _, (Nat.div_add_mod _ 10).symm, (Nat.div_add_mod _ 10).symm, Nat.mod_lt _ (by decide),
    Nat.mod_lt _ (by decide)⟩

/-- The digits and the carry are those of the sum of the two numbers. -/
theorem DigitSum.sum_digits (d : DigitSum xh xl yh yl cin k lo c hi)
    (hs : sum = 10 * xh + xl + (10 * yh + yl) + cin) :
    sum % 100 / 10 = hi ∧ sum % 10 = lo ∧ (100 ≤ sum ↔ 0 < c) := by
  obtain ⟨low, high, lo_lt, hi_lt⟩ := d
  omega

/-- Two digits and a carry in make one carry out at most. -/
theorem DigitSum.carries (d : DigitSum xh xl yh yl cin k lo c hi) (hxh : xh < 10) (hxl : xl < 10) (hyh : yh < 10)
    (hyl : yl < 10) (hcin : cin ≤ 1) : (k = 0 ∨ k = 1) ∧ (c = 0 ∨ c = 1) := by
  obtain ⟨low, high, lo_lt, hi_lt⟩ := d
  omega

/-- The correction of a low digit that passes 9 moves its carry into the high digit (R124). -/
theorem lowDigit_corrected {n : Nat} (h : n = 10 * k + lo) (hlo : lo < 10) (hk : k = 0 ∨ k = 1) :
    (if 10 ≤ n then (n + 6) % 16 + 16 else n) = 16 * k + lo := by
  split <;> omega

end DigitSums

section Bcd

variable {ah al mh ml k lo c hi : Nat} {cin : Bool}

/-- Decimal addition corrects each digit that passes 9, the low one first, so it adds as on paper (R124). -/
theorem adcDecimal_bcd (hah : ah < 10) (hal : al < 10) (hmh : mh < 10) (hml : ml < 10)
    (d : DigitSum ah al mh ml cin.toNat k lo c hi) :
    let o := adcDecimal (BitVec.ofNat 8 (16 * ah + al)) (BitVec.ofNat 8 (16 * mh + ml)) cin
    o.res.toNat = 16 * hi + lo ∧ o.carry = decide (0 < c) ∧ o.extra = decide (0 < c) := by
  obtain ⟨hk, hc⟩ := d.carries hah hal hmh hml cin.toNat_le
  obtain ⟨low, high, lo_lt, hi_lt⟩ := d
  simp only [adcDecimal, loDigit_bcd, hiDigits_bcd, hah, hal, hmh, hml, lowDigit_corrected low lo_lt hk,
    BitVec.toNat_ofNat, decide_eq_decide]
  refine ⟨?res, ?carry, ?extra⟩
  case res => split <;> omega
  case carry => split <;> omega
  case extra => omega

/-- Decimal subtraction adds the nines' complement as on paper; a carry out is no borrow (R125). -/
theorem sbcDecimal_bcd (hah : ah < 10) (hal : al < 10) (hmh : mh < 10) (hml : ml < 10)
    (d : DigitSum ah al (9 - mh) (9 - ml) cin.toNat k lo c hi) :
    let o := sbcDecimal (BitVec.ofNat 8 (16 * ah + al)) (BitVec.ofNat 8 (16 * mh + ml)) cin
    o.res.toNat = 16 * hi + lo ∧ o.carry = decide (0 < c) ∧ o.extra = decide (c = 0) := by
  obtain ⟨hk, hc⟩ := d.carries hah hal (by omega) (by omega) cin.toNat_le
  obtain ⟨low, high, lo_lt, hi_lt⟩ := d
  simp only [sbcDecimal, sbcBinary_eq_adcBinary, adcBinary_carry, BitVec.toNat_not, loDigit_bcd, toNat_bcd, hah, hal, hmh, hml,
    BitVec.toNat_ofInt, decide_eq_decide]
  refine ⟨?res, ?carry, ?extra⟩
  -- a borrow out of the byte and one out of the low digit, each corrected or not
  case res => split <;> split <;> omega
  case carry => omega
  case extra => omega

end Bcd

/-- Settles O34: both operations go digit by digit as on paper, and so do the sum and, with the nines' complement, the
difference that the statement names (D17, D18). -/
theorem decimalArithmetic : Obligations.DecimalArithmetic := by
  intro ah al mh ml cin hah hal hmh hml
  refine ⟨?adc, ?sbc⟩
  case adc =>
    obtain ⟨k, lo, c, hi, d⟩ := exists_digitSum ah al mh ml cin.toNat
    obtain ⟨hhi, hlo, hcarry⟩ := d.sum_digits rfl
    obtain ⟨res, carry, extra⟩ := adcDecimal_bcd hah hal hmh hml d
    simp only [hhi, hlo, hcarry]
    exact ⟨res, carry, extra⟩
  case sbc =>
    obtain ⟨k, lo, c, hi, d⟩ := exists_digitSum ah al (9 - mh) (9 - ml) cin.toNat
    obtain ⟨hhi, hlo, hcarry⟩ := d.sum_digits (sum := 100 + (10 * ah + al) + cin.toNat - (10 * mh + ml) - 1) (by omega)
    obtain ⟨res, carry, extra⟩ := sbcDecimal_bcd hah hal hmh hml d
    simp only [hhi, hlo, hcarry, ← Nat.not_le (a := 100), Nat.not_lt, Nat.le_zero]
    exact ⟨res, carry, extra⟩

end Sys2Proof.Machine
end

section
/-! PROOFS. Shifts and rotates (spec/42_shift_rotate.md R130 to R133): what the read-modify-write shape asks of an operation,
and the four operations as arithmetic. -/

namespace Sys2Proof.Machine

/-! ### The read-modify-write shape -/

/-- An instruction in the five forms of the shifts whose meaning is `modifyOperand` has the shape `modifies` once its function
gives the stated result and flags of the operand. -/
theorem modifies_of_modifyOperand {i : Mode → Instr} {f : Byte → Byte × Byte} {out : Byte → Byte × List (Flag × Bool)}
    {cost : Mode → Bool → Nat} {s : State} (hexec : ∀ m, exec (i m) s = .next (modifyOperand m f (cost m) s))
    (hforms : ∀ m, (i m).wf = Form.shiftForms.contains m.form) (hres : ∀ v, (f v).1 = (out v).1)
    (hflags : ∀ v, flagsBecome s.p (f v).2 (out v).2) : modifies i out cost s := by
  refine ⟨⟨(f s.a).2, ?acc, hflags s.a⟩, fun m hwf hacc => ?memory⟩
  case acc =>
    rw [hexec, ← hres]
    rfl
  case memory =>
    rw [hforms] at hwf
    have hind : m.form ≠ .ind := fun h => absurd hwf (by rw [h]; decide)
    have hiax : m.form ≠ .iax := fun h => absurd hwf (by rw [h]; decide)
    simp only [← hres]
    exact ⟨_, (hexec m).trans (congrArg _ (modifyOperand_memory hacc f (cost m) s)), hflags _, ramRead_modify hind hiax _ _⟩

/-- A shift has the shape `modifies` once its operation, with the old carry, is the stated number and bit shifted out. -/
theorem modifies_of_shiftBy {i : Mode → Instr} {f : Byte → Bool → ShiftOut} {res : Byte → Nat} {carry : Byte → Bool}
    {s : State} (hexec : ∀ m, exec (i m) s = .next (shiftBy f m s))
    (hforms : ∀ m, (i m).wf = Form.shiftForms.contains m.form)
    (hop : ∀ v, f v (getFlag s.p .c) = ⟨BitVec.ofNat 8 (res v), carry v⟩) :
    modifies i (fun v => (BitVec.ofNat 8 (res v), (.c, carry v) :: nzOf (BitVec.ofNat 8 (res v)))) shiftCycles s := by
  refine modifies_of_modifyOperand hexec hforms (fun v => by rw [hop]) fun v => ?_
  rw [hop]
  exact flagsBecome_congr (flagsBecome_shiftFlags s.p _) fun c => by simp [or_comm, or_left_comm]

/-! ### The four operations as arithmetic -/

/-- Bit 0 of a byte, as a number. -/
theorem getLsbD_zero (v : Byte) : v.getLsbD 0 = decide (v.toNat % 2 = 1) := Nat.testBit_zero v.toNat

theorem shiftLeft_one_eq_ofNat (v : Byte) : v <<< 1 = BitVec.ofNat 8 (2 * v.toNat) := by
  apply BitVec.eq_of_toNat_eq
  rw [BitVec.toNat_shiftLeft, BitVec.toNat_ofNat, Nat.shiftLeft_eq, Nat.mul_comm, pow_one]

theorem ushiftRight_one_eq_ofNat (v : Byte) : v >>> 1 = BitVec.ofNat 8 (v.toNat / 2) := by
  apply BitVec.eq_of_toNat_eq
  have := v.isLt
  rw [BitVec.toNat_ushiftRight, BitVec.toNat_ofNat, Nat.shiftRight_eq_div_pow, pow_one]
  omega

/-- A carry that enters at a bit which is free is added with the weight of that bit. -/
theorem or_carry_of_free {w : Byte} {k : Nat} (hfree : w.getLsbD k = false) (cin : Bool) :
    w ||| (if cin then BitVec.twoPow 8 k else 0) = w + BitVec.ofNat 8 (2 ^ k * cin.toNat) := by
  cases cin with
  | false => simp
  | true =>
    have hdisjoint : w &&& BitVec.twoPow 8 k = 0 := by simp [BitVec.and_twoPow, hfree]
    have hweight : BitVec.ofNat 8 (2 ^ k * true.toNat) = BitVec.twoPow 8 k := by simp [← BitVec.toNat_inj]
    rw [hweight, BitVec.add_eq_or_of_and_eq_zero _ _ hdisjoint, if_pos rfl]

theorem aslOp_eq (v : Byte) (cin : Bool) : aslOp v cin = ⟨BitVec.ofNat 8 (2 * v.toNat), decide (128 ≤ v.toNat)⟩ := by
  rw [aslOp, shiftLeft_one_eq_ofNat, getLsbD_seven]

theorem lsrOp_eq (v : Byte) (cin : Bool) : lsrOp v cin = ⟨BitVec.ofNat 8 (v.toNat / 2), decide (v.toNat % 2 = 1)⟩ := by
  rw [lsrOp, ushiftRight_one_eq_ofNat, getLsbD_zero]

/-- Doubling leaves bit 0 free for the old carry. -/
theorem rolOp_eq (v : Byte) (cin : Bool) :
    rolOp v cin = ⟨BitVec.ofNat 8 (2 * v.toNat + cin.toNat), decide (128 ≤ v.toNat)⟩ := by
  have hfree : (v <<< 1).getLsbD 0 = false := by simp
  have hres := calc (rolOp v cin).res
    _ = v <<< 1 + BitVec.ofNat 8 (2 ^ 0 * cin.toNat) := or_carry_of_free hfree cin
    _ = BitVec.ofNat 8 (2 * v.toNat + cin.toNat) := by
      rw [shiftLeft_one_eq_ofNat, ← BitVec.ofNat_add, pow_zero, one_mul]
  exact congrArg₂ ShiftOut.mk hres (getLsbD_seven v)

/-- Halving leaves bit 7 free for the old carry. -/
theorem rorOp_eq (v : Byte) (cin : Bool) :
    rorOp v cin = ⟨BitVec.ofNat 8 (v.toNat / 2 + 128 * cin.toNat), decide (v.toNat % 2 = 1)⟩ := by
  have hfree : (v >>> 1).getLsbD 7 = false := by simp
  have hres := calc (rorOp v cin).res
    _ = v >>> 1 + BitVec.ofNat 8 (2 ^ 7 * cin.toNat) := or_carry_of_free hfree cin
    _ = BitVec.ofNat 8 (v.toNat / 2 + 128 * cin.toNat) := by
      rw [ushiftRight_one_eq_ofNat, ← BitVec.ofNat_add]
      rfl
  exact congrArg₂ ShiftOut.mk hres (getLsbD_zero v)

/-- Settles O37: each instruction is a read-modify-write at its operation, which is the arithmetic of the statement. -/
theorem shifts : Obligations.Shifts := by
  intro s
  have shape {i f res carry} := modifies_of_shiftBy (i := i) (f := f) (res := res) (carry := carry) (s := s)
  exact ⟨shape (fun _ => rfl) (fun _ => rfl) fun v => aslOp_eq v _,
    shape (fun _ => rfl) (fun _ => rfl) fun v => lsrOp_eq v _,
    shape (fun _ => rfl) (fun _ => rfl) fun v => rolOp_eq v _,
    shape (fun _ => rfl) (fun _ => rfl) fun v => rorOp_eq v _⟩

end Sys2Proof.Machine
end

section
/-! PROOFS. Compares, increments and decrements (spec/43_compare_incdec.md R135 to R143). -/

namespace Sys2Proof.Machine

/-! ### INC and DEC -/

/-- An increment or decrement has the shape `modifies` once its function of the operand is the stated number. -/
theorem modifies_of_modifyNZ {i : Mode → Instr} {g : Byte → Byte} {res : Byte → Nat} {s : State}
    (hexec : ∀ m, exec (i m) s = .next (modifyOperand m (fun v => (g v, setNZ s.p (g v))) (fun _ => incCycles m) s))
    (hforms : ∀ m, (i m).wf = Form.shiftForms.contains m.form) (hop : ∀ v, g v = BitVec.ofNat 8 (res v)) :
    modifies i (fun v => (BitVec.ofNat 8 (res v), nzOf (BitVec.ofNat 8 (res v)))) (fun m _ => incCycles m) s := by
  refine modifies_of_modifyOperand hexec hforms hop fun v => ?_
  rw [← hop]
  exact flagsBecome_setNZ s.p (g v)

/-- Settles O38: each instruction is a read-modify-write that adds 1, or 255 in place of subtracting 1. -/
theorem incrementAndDecrement : Obligations.IncrementAndDecrement :=
  fun _ => ⟨modifies_of_modifyNZ (fun _ => rfl) (fun _ => rfl) byte_add_one,
    modifies_of_modifyNZ (fun _ => rfl) (fun _ => rfl) byte_sub_one⟩

/-! ### INX, INY, DEX and DEY -/

theorem toNat_byte_add_one (b : Byte) : (b + 1).toNat = (b.toNat + 1) % 256 := BitVec.toNat_add b 1

theorem toNat_byte_sub_one (b : Byte) : (b - 1).toNat = (b.toNat + 255) % 256 := by
  rw [byte_sub_one]
  exact BitVec.toNat_ofNat _ 8

/-- Settles O39: each instruction writes the sum or difference to its register, N and Z by `setNZ`, and its cost. -/
theorem indexIncrements : Obligations.IndexIncrements := by
  intro s
  have hflags := flagsBecome_setNZ s.p
  exact ⟨⟨_, _, rfl, toNat_byte_add_one s.x, hflags _⟩, ⟨_, _, rfl, toNat_byte_add_one s.y, hflags _⟩,
    ⟨_, _, rfl, toNat_byte_sub_one s.x, hflags _⟩, ⟨_, _, rfl, toNat_byte_sub_one s.y, hflags _⟩, rfl, rfl, rfl, rfl⟩

/-! ### CMP, CPX and CPY -/

/-- A compare of a register that reading an operand keeps: the operand is read, then P and the cost are written. -/
theorem compareOp_eq {reg : State → Byte} {m : Mode} {s : State} (hreg : reg (operandAt m s).2 = reg s) :
    compareOp reg m s =
      { (operandAt m s).2 with
        p := compareFlags s.p (reg s) (operandAt m s).1, cyc := s.cyc + readCycles m (effAddr m s).crossed } := by
  simp only [compareOp, readOperand_eq, State.charge, State.setP, hreg, operandAt_p, operandAt_cyc]

/-- Bit 7 of a difference of bytes, from the difference of the numbers modulo 256. -/
theorem getLsbD_seven_sub (r v : Byte) :
    (r - v).getLsbD 7 = decide (128 ≤ ((r.toNat : Int) - v.toNat) % 256) := by
  have hv := v.isLt
  rw [getLsbD_seven, BitVec.toNat_sub, decide_eq_decide]
  omega

/-- The flags of a compare as arithmetic, C first: the list of `flagsBecome_compareFlags` reversed. -/
theorem flagsBecome_compareFlags_arith (p r v : Byte) :
    flagsBecome p (compareFlags p r v)
      [(.c, decide (v.toNat ≤ r.toNat)), (.z, decide (r = v)),
        (.n, decide (128 ≤ ((r.toNat : Int) - v.toNat) % 256))] := by
  rw [← getLsbD_seven_sub]
  exact flagsBecome_congr (flagsBecome_compareFlags p r v) fun _ => List.mem_reverse (as := [_, _, _])

/-- Settles O40: each compare is `compareOp_eq` at its register, which the operand read keeps, as it keeps memory. -/
theorem compares : Obligations.Compares := by
  intro m s
  have op {reg : State → Byte} (hreg : reg (operandAt m s).2 = reg s) :=
    congrArg (Host.Outcome.next : State → Result) (compareOp_eq hreg)
  have hflags (r : Byte) := flagsBecome_compareFlags_arith s.p r (operandAt m s).1
  exact ⟨fun _ => ⟨_, op (operandAt_a m s), hflags s.a⟩, fun _ => ⟨_, op (operandAt_x m s), hflags s.x⟩,
    fun _ => ⟨_, op (operandAt_y m s), hflags s.y⟩, fun h => ramRead_operandAt h m⟩

end Sys2Proof.Machine
end

section
/-! PROOFS. Branches and jump (spec/44_branch_jump.md R145 to R155). -/

namespace Sys2Proof.Machine

/-! ### The nine branches -/

/-- A branch target is the signed sum modulo 65536 (R74, R145). -/
theorem add_sext16 (a : Addr) (r : Byte) : a + sext16 r = BitVec.ofInt 16 ((a.toNat : Int) + r.toInt) := by
  rw [BitVec.ofInt_add, BitVec.ofInt_natCast, BitVec.ofNat_toNat, BitVec.setWidth_eq, sext16, BitVec.signExtend]

/-- The cost of a taken branch, from the page numbers. -/
theorem three_add_crossing_pageCross (a b : Addr) :
    3 + crossing (pageCross a b) = if a.toNat / 256 = b.toNat / 256 then 3 else 4 := by
  rw [pageCross, hi8_bne, crossing]
  by_cases h : a.toNat / 256 = b.toNat / 256 <;> simp [h]

theorem branch_taken (r : Byte) (s : State) :
    branch true r s =
      { s with
        pc := s.pc + sext16 r
        cyc := s.cyc + if s.pc.toNat / 256 = (s.pc + sext16 r).toNat / 256 then 3 else 4 } := by
  rw [← three_add_crossing_pageCross]
  rfl

theorem branch_not_taken (r : Byte) (s : State) : branch false r s = { s with cyc := s.cyc + 2 } := rfl

/-- An instruction that is a branch on a test of P goes to the target exactly when the test holds. -/
theorem exec_of_branch {i : Instr} {taken : Bool} {cond : Prop} {r : Byte} {s : State}
    (hexec : exec i s = .next (branch taken r s)) (hcond : taken = true ↔ cond) :
    (cond → exec i s =
      .next { s with
        pc := s.pc + sext16 r
        cyc := s.cyc + if s.pc.toNat / 256 = (s.pc + sext16 r).toNat / 256 then 3 else 4 }) ∧
    (¬ cond → exec i s = .next { s with cyc := s.cyc + 2 }) := by
  rw [← hcond, hexec]
  refine ⟨fun h => ?taken, fun h => ?notTaken⟩
  case taken => rw [h, branch_taken]
  case notTaken => rw [Bool.eq_false_of_not_eq_true h, branch_not_taken]

/-- Settles O41: each instruction is `branch` on its test of P, a flag or its complement. -/
theorem branches : Obligations.Branches := by
  intro r s
  rw [← add_sext16]
  have ifClear (f : Flag) : (!getFlag s.p f) = true ↔ getFlag s.p f = false := (Bool.not_eq_true' _).to_iff
  exact ⟨exec_of_branch rfl (ifClear .n), exec_of_branch rfl Iff.rfl, exec_of_branch rfl (ifClear .v),
    exec_of_branch rfl Iff.rfl, exec_of_branch rfl (ifClear .c), exec_of_branch rfl Iff.rfl,
    exec_of_branch rfl (ifClear .z), exec_of_branch rfl Iff.rfl, exec_of_branch rfl (eq_self_iff_true true)⟩

/-! ### JMP -/

/-- The cost of JMP in its three forms (Table 30-3). -/
theorem jumpCycles_of_jmp_wf {m : Mode} (h : (Instr.jmp m).wf = true) :
    jumpCycles m = if m.form = .abs then 3 else 6 := by
  cases m with
  | abs a | ind a | iax a => rfl
  | _ => nomatch h

/-- Computing an effective address with no transfer in flight changes no byte of Bus memory. -/
theorem ramRead_effAddr {s : State} (h : s.sc.busy = false) (m : Mode) (b : Addr) :
    ramRead b (effAddr m s).st = ramRead b s := by
  rw [ramRead, (effAddr_sameStorage h m).mem, ramRead]

/-- JMP goes to the effective address, and the state is otherwise the one its computation leaves. -/
theorem execJmp_eq (m : Mode) (s : State) :
    execJmp m s = .next { (effAddr m s).st with pc := (effAddr m s).addr, cyc := s.cyc + jumpCycles m } := by
  rw [← effAddr_cyc m s]
  rfl

/-- Settles O42: `execJmp_eq` with the cost of each form; the pointer reads keep memory and form abs has none. -/
theorem jump : Obligations.Jump := by
  intro m s hwf
  refine ⟨?next, fun h => ramRead_effAddr h m, ?abs⟩
  case next => exact jumpCycles_of_jmp_wf hwf ▸ execJmp_eq m s
  case abs =>
    rintro a rfl
    exact ⟨rfl, rfl⟩

end Sys2Proof.Machine
end

section
/-! PROOFS. Stack pushes and pulls with no transfer in flight (spec/45_stack.md R160 to R167). -/

namespace Sys2Proof.Machine

/-- An instruction that pushes one byte writes it at the stack pointer and nowhere else. -/
theorem exec_of_push {i : Instr} {v : Byte} {s : State} (hq : s.quiet)
    (hexec : exec i s = .next ((push v s).charge 3)) :
    exec i s = .next { ramWrite (stackAddr s) v s with sp := s.sp - 1, cyc := s.cyc + 3 } ∧
      (s.mem.wf 65536 = true → ∀ b : Addr, ramRead b (ramWrite (stackAddr s) v s) =
        if b = stackAddr s then v else ramRead b s) := by
  refine ⟨?next, fun hw b => ramRead_ramWrite hw _ b v⟩
  rw [hexec, push_quiet hq]
  rfl

/-- PHP pushes P with the flag U set: `0x20` is the mask of U (D13). -/
theorem execPhp_eq (s : State) : execPhp s = .next ((push (setFlag s.p .u true) s).charge 3) := rfl

/-- Settles O43: each instruction is one push of its byte, which for PHP is P with U set. -/
theorem pushes : Obligations.Pushes := by
  intro s hq
  exact ⟨exec_of_push hq rfl, exec_of_push hq rfl, exec_of_push hq rfl,
    ⟨_, exec_of_push hq (execPhp_eq s), getFlag_setFlag_same s.p .u true, fun _ hf => getFlag_setFlag_ne hf s.p true⟩, rfl, rfl, rfl⟩

/-- An instruction that pulls one byte and hands it to `update` does so with the byte above the stack pointer, SP one higher. -/
theorem exec_of_pull {i : Instr} {s : State} (hq : s.quiet) (update : Byte → State → State)
    (hexec : exec i s = .next ((update (pull s).1 (pull s).2).charge 4)) :
    exec i s =
      .next ((update (ramRead (mk16 s.cfg.stackPage (s.sp + 1)) s) (s.setSp (s.sp + 1))).charge 4) := by
  rw [hexec, pull_quiet hq]

/-- Settles O44: each instruction is one pull into its register, N and Z by `setNZ`; PLP's register is P itself. -/
theorem pulls : Obligations.Pulls := by
  intro s hq
  have hflags := flagsBecome_setNZ s.p (ramRead (mk16 s.cfg.stackPage (s.sp + 1)) s)
  exact ⟨⟨_, exec_of_pull hq (fun v t => (t.setA v).setNZ v) rfl, hflags⟩,
    ⟨_, exec_of_pull hq (fun v t => (t.setX v).setNZ v) rfl, hflags⟩,
    ⟨_, exec_of_pull hq (fun v t => (t.setY v).setNZ v) rfl, hflags⟩,
    exec_of_pull hq (fun v t => t.setP v) rfl⟩

end Sys2Proof.Machine
end

section
/-! PROOFS. Calls, returns and the software interrupt with no transfer in flight (spec/46_subroutine_interrupt.md R170 to
R173). -/

namespace Sys2Proof.Machine

/-! ### JSR and RTS -/

/-- Bus memory after the two pushes of a call that returns to `ret` (R170). -/
def callMem (ret : Addr) (s : State) : Memory :=
  (s.mem.write (stackAddr s).toNat (hi8 ret)).write (mk16 s.cfg.stackPage (s.sp - 1)).toNat (lo8 ret)

/-- The two stack places hold the return address and every other byte is as before. -/
theorem read_callMem {s : State} (hw : s.mem.wf 65536 = true) (ret b : Addr) :
    (callMem ret s).read b.toNat =
      if b = stackAddr s then hi8 ret
      else if b = mk16 s.cfg.stackPage (s.sp - 1) then lo8 ret else ramRead b s := by
  have hne : mk16 s.cfg.stackPage (s.sp - 1) ≠ stackAddr s := stack_ne (by bv_omega)
  calc (callMem ret s).read b.toNat
    _ = ramRead b (ramWrite (mk16 s.cfg.stackPage (s.sp - 1)) (lo8 ret) (ramWrite (stackAddr s) (hi8 ret) s)) := rfl
    _ = if b = mk16 s.cfg.stackPage (s.sp - 1) then lo8 ret else if b = stackAddr s then hi8 ret else ramRead b s := by
      rw [ramRead_ramWrite (ramWrite_wf hw _ _), ramRead_ramWrite hw]
    _ = _ := ite_ite_comm _ _ _ _ fun hb => hb ▸ hne

/-- JSR is the two pushes of a call that returns to its own last byte. -/
theorem exec_jsr_quiet {s : State} (hq : s.quiet) (a : Addr) :
    exec (.jsr a) s = .next { s with mem := callMem (s.pc - 1) s, sp := s.sp - 2, pc := a, cyc := s.cyc + 6 } := by
  show Host.Outcome.next (((push16 (s.pc - 1) s).setPc a).charge 6) = _
  rw [push16_quiet hq]
  rfl

/-- RTS is two pulls, and goes one past the address pulled. -/
theorem exec_rts_quiet {s : State} (hq : s.quiet) :
    exec .rts s = .next
      { s with
        pc := mk16 (ramRead (mk16 s.cfg.stackPage (s.sp + 2)) s) (ramRead (mk16 s.cfg.stackPage (s.sp + 1)) s) + 1,
        sp := s.sp + 2, cyc := s.cyc + 6 } := by
  show Host.Outcome.next (((pull16 s).2.setPc ((pull16 s).1 + 1)).charge 6) = _
  rw [pull16_quiet hq]
  rfl

/-- Settles O45: `exec_jsr_quiet` and `exec_rts_quiet`, with what memory reads after the two pushes. -/
theorem callAndReturn : Obligations.CallAndReturn := by
  intro s a hq
  exact ⟨⟨callMem (s.pc - 1) s, exec_jsr_quiet hq a, rfl, fun hw => read_callMem hw (s.pc - 1)⟩, exec_rts_quiet hq⟩

/-- The address that two pulls find after a call's two pushes is the one pushed, the stack pointer wrapping or not. -/
theorem mk16_read_callMem {s : State} (hw : s.mem.wf 65536 = true) (ret : Addr) :
    mk16 ((callMem ret s).read (mk16 s.cfg.stackPage (s.sp - 2 + 2)).toNat)
      ((callMem ret s).read (mk16 s.cfg.stackPage (s.sp - 2 + 1)).toNat) = ret := by
  have hhi : mk16 s.cfg.stackPage (s.sp - 2 + 2) = stackAddr s := congrArg _ (BitVec.sub_add_cancel s.sp 2)
  have hlo : s.sp - 2 + 1 = s.sp - 1 := by bv_omega
  have hne : mk16 s.cfg.stackPage (s.sp - 1) ≠ stackAddr s := stack_ne (by bv_omega)
  rw [hhi, hlo, read_callMem hw, if_pos rfl, read_callMem hw, if_neg hne, if_pos rfl, mk16_hi8_lo8]

/-- Settles O46: RTS finds the pushed address of the call's last byte (`mk16_read_callMem`), and goes one past it. -/
theorem callThenReturn : Obligations.CallThenReturn := by
  intro s t u a hq hw ht hu
  rw [exec_jsr_quiet hq] at ht
  obtain rfl := Host.Outcome.next.inj ht
  rw [exec_rts_quiet (by exact hq)] at hu
  obtain rfl := Host.Outcome.next.inj hu
  refine ⟨?pc, ?sp, rfl, rfl, rfl, rfl⟩
  case pc => exact (congrArg (· + 1) (mk16_read_callMem hw (s.pc - 1))).trans (BitVec.sub_add_cancel s.pc 1)
  case sp => exact BitVec.sub_add_cancel s.sp 2

/-! ### RTI and BRK -/

/-- RTI's mask clears U and B of the byte pulled and keeps the other six flags (D12). -/
theorem flagsBecome_pulledStatus (v : Byte) : flagsBecome v (v &&& 0xCF) [(.u, false), (.b, false)] := by
  have hmask : setFlag (setFlag v .b false) .u false = v &&& 0xCF := BitVec.and_assoc v 0xEF 0xDF
  exact hmask ▸ flagsBecome_cons (flagsBecome_setFlag v .b false) .u false (by decide)

/-- Settles O47: RTI is the return from an exception, and its mask clears U and B. -/
theorem returnFromInterrupt : Obligations.ReturnFromInterrupt := by
  intro s hq
  exact ⟨_, congrArg Host.Outcome.next (returnFromException_quiet hq), flagsBecome_pulledStatus _⟩

/-- Two changes of the status byte, one after the other, that write different flags. -/
theorem flagsBecome_append {p q r : Byte} {l k : List (Flag × Bool)} (hl : flagsBecome p q l) (hk : flagsBecome q r k)
    (hdisj : (l.map Prod.fst).Disjoint (k.map Prod.fst)) : flagsBecome p r (k ++ l) := by
  refine ⟨fun f b hm => ?listed, fun f hm => ?other⟩
  case listed =>
    rcases List.mem_append.1 hm with hm | hm
    · exact hk.1 f b hm
    · exact (hk.2 f (hdisj (List.mem_map_of_mem hm))).trans (hl.1 f b hm)
  case other =>
    rw [List.map_append, List.mem_append, not_or] at hm
    exact (hk.2 f hm.1).trans (hl.2 f hm.2)

/-- Both bytes of a vector pair lie in Bus memory (R275). -/
theorem plainAddr_vector {s : State} (hc : configOk s.cfg = true) {vec : Addr}
    (hvec : vec = s.cfg.vecNmi ∨ vec = s.cfg.vecReset ∨ vec = s.cfg.vecIrq) :
    plainAddr s vec ∧ plainAddr s (vec + 1) := by
  have hplain (a : Addr) (ha : a = vec ∨ a = vec + 1) : plainAddr s a := by
    obtain ⟨-, -, -, hvector⟩ := addressDecoder s.cfg a hc
    exact hvector vec hvec ha
  exact ⟨hplain vec (.inl rfl), hplain (vec + 1) (.inr rfl)⟩

/-- An exception taken with no transfer in flight through a vector pair in Bus memory. -/
theorem enters_takeException {s : State} (hq : s.quiet) (ret : Addr) (status : Byte) {vec : Addr}
    (hvec : vec = s.cfg.vecNmi ∨ vec = s.cfg.vecReset ∨ vec = s.cfg.vecIrq) :
    enters s (takeException ret status vec s) ret status vec [] := by
  obtain ⟨h0, h1⟩ := plainAddr_vector hq.1 hvec
  exact ⟨entryMem ret status s, entryFlags s.cfg s.p, takeException_quiet hq ret status h0 h1,
    (List.append_nil _).symm ▸ flagsBecome_entryFlags s.cfg s.p, fun hw => read_entryMem hw ret status⟩

/-- An entry from a state whose status byte was first changed in `extra`, flags that an entry does not write. -/
theorem enters_of_enters_setP {s t : State} {q : Byte} {ret : Addr} {status : Byte} {vec : Addr}
    {extra : List (Flag × Bool)} (h : enters (s.setP q) t ret status vec []) (hq : flagsBecome s.p q extra)
    (hi : Flag.i ∉ extra.map Prod.fst) (hd : Flag.d ∉ extra.map Prod.fst) : enters s t ret status vec extra := by
  obtain ⟨m, p', rfl, hflags, hread⟩ := h
  rw [List.append_nil] at hflags
  refine ⟨m, p', rfl, flagsBecome_append hq hflags ?_, hread⟩
  show List.Disjoint _ (List.map Prod.fst ([(Flag.i, true)] ++ if s.cfg.intClearsD = true then [(Flag.d, false)] else []))
  split <;> simp [hi, hd]

/-- Settles O48: BRK sets B and U in P, and takes the exception with that byte as the status. -/
theorem softwareInterrupt_enters : Obligations.SoftwareInterrupt := by
  intro s hq
  have hp : flagsBecome s.p (setFlag (setFlag s.p .b true) .u true) [(.b, true), (.u, true)] :=
    flagsBecome_congr (flagsBecome_cons (flagsBecome_setFlag s.p .b true) .u true (by decide)) (by simp [or_comm])
  have henters := enters_takeException (s := s.setP (setFlag (setFlag s.p .b true) .u true)) hq (s.pc + 1)
    (setFlag (setFlag s.p .b true) .u true) (.inr (.inr rfl))
  exact ⟨softwareInterrupt s, _, rfl, hp, enters_of_enters_setP henters hp (by decide) (by decide)⟩

end Sys2Proof.Machine
end

section
/-! PROOFS. Transfers, flag instructions, NOP and the reserved opcodes (spec/47_transfer_flag_nop.md R175 to R189). -/

namespace Sys2Proof.Machine

/-- Settles O52: a transfer sets N and Z by `setNZ` of the byte it moves, a flag instruction one flag by `setFlag`. -/
theorem transfersAndFlags : Obligations.TransfersAndFlags := by
  intro s
  have hnz (v : Byte) : flagsBecome s.p (setNZ s.p v) (nzOf v) := flagsBecome_setNZ s.p v
  have hflag (f : Flag) (b : Bool) : flagsBecome s.p (setFlag s.p f b) [(f, b)] := flagsBecome_setFlag s.p f b
  exact ⟨⟨_, rfl, hnz s.a⟩, ⟨_, rfl, hnz s.x⟩, ⟨_, rfl, hnz s.a⟩, ⟨_, rfl, hnz s.y⟩, ⟨_, rfl, hnz s.sp⟩, rfl,
    ⟨_, rfl, hflag .c false⟩, ⟨_, rfl, hflag .c true⟩, ⟨_, rfl, hflag .i false⟩, ⟨_, rfl, hflag .i true⟩,
    ⟨_, rfl, hflag .d false⟩, ⟨_, rfl, hflag .d true⟩, ⟨_, rfl, hflag .v false⟩⟩

/-- A reserved instruction is named by its opcode: it is `reservedNop` of it (R189). -/
theorem exec_reserved {i : Instr} {op : Byte} (h : i.reservedOpcode? = some op) (s : State) :
    exec i s = .next (reservedNop op s) := by
  unfold Instr.reservedOpcode? at h
  split at h
  case h_79 => cases h
  all_goals
    cases h
    rfl

theorem opcode?_reserved {i : Instr} {op : Byte} (h : i.reservedOpcode? = some op) : i.opcode? = some op := by
  unfold Instr.reservedOpcode? at h
  split at h
  case h_79 => cases h
  all_goals exact h

theorem skipCount_reserved {i : Instr} {op : Byte} (h : i.reservedOpcode? = some op) (t : List ReservedRow) :
    i.skipCount t = (reservedRow t op).skip.val := by
  rw [Instr.skipCount, h]

/-- Settles O53: a reserved instruction is `reservedNop` of its opcode, and an opcode that decodes to one is that opcode
(`opcodeSelectsInstruction`); the last six clauses are three rows of the default table. -/
theorem nopAndReserved : Obligations.NopAndReserved := by
  refine ⟨fun s => rfl, fun s i op h => ?reserved, fun op b1 b2 => ?opcode, rfl, rfl, rfl, rfl, rfl, rfl⟩
  case reserved =>
    rw [exec_reserved h, skipCount_reserved h]
    rfl
  case opcode =>
    obtain ⟨-, hop, -⟩ := opcodeSelectsInstruction op b1 b2
    cases hr : (decodeOpcode op b1 b2).reservedOpcode? with
    | none => exact .inl rfl
    | some o => exact .inr ((opcode?_reserved hr).symm.trans hop)

end Sys2Proof.Machine
end

section
/-! PROOFS. The registers of one VIA and the interrupt line (spec/48_via.md R203 to R222). -/

namespace Sys2Proof.Machine

/-! ### Ports -/

theorem viaRead_portOffset (c : ViaId) (p : Port) (s : State) :
    viaRead c (portOffset p) s = ((s.via c).inLatch p, s.setVia c ((s.via c).portRead s.cfg p)) := by
  simp only [viaRead, viaReg_portOffset]

theorem viaWrite_portOffset (c : ViaId) (p : Port) (v : Byte) (s : State) :
    viaWrite c (portOffset p) v s = feed c p v (s.setVia c ((s.via c).setOutLatch p v)) := by
  simp only [viaWrite, viaReg_portOffset]

theorem setOutLatch_ifr (v : Via) (p : Port) (b : Byte) : (v.setOutLatch p b).ifr = v.ifr := by
  cases p <;> rfl

theorem feed_causesGrow (c : ViaId) (p : Port) (v : Byte) (s : State) : CausesGrow s (feed c p v s) := by
  have hself : CausesGrow s s := .of_via fun _ => rfl
  rw [feed]
  split
  · split
    · exact scWriteByte_causesGrow v _ s
    · exact hself
  · exact hself

/-- A port write clears no cause bit: it writes an output latch and may start a transfer, which sets one at most (R206). -/
theorem viaWrite_port_causesGrow (c : ViaId) (p : Port) (v : Byte) (s : State) :
    CausesGrow s (viaWrite c (portOffset p) v s) := by
  rw [viaWrite_portOffset]
  refine .trans (fun d k h => ?_) (feed_causesGrow c p v _)
  rw [State.setVia_via]
  split
  · next hd => rwa [setOutLatch_ifr, ← hd]
  · exact h

theorem composite_eq (v : Via) : v.composite = decide (v.ifr ≠ 0) := by
  rw [Via.composite, Bool.eq_iff_iff]
  simp

theorem irqOut_eq (v : Via) : v.irqOut = decide (v.ifr = 0) := by
  rw [Via.irqOut, composite_eq]
  simp

/-- Settles O17: the latch and one cause bit are cleared, and a port write only ever adds cause bits. -/
theorem portRead : Obligations.PortRead := by
  intro s c p
  have hvia : (viaRead c (portOffset p) s).2.via c = (s.via c).portRead s.cfg p := by
    rw [viaRead_portOffset, State.setVia_via_same]
  refine ⟨⟨clearBit7 (s.via c).ifr (causeBit s.cfg p), viaRead_portOffset c p s,
    fun k hk => getLsbD_clearBit7 _ _ k hk, ?composite, ?output⟩, fun v d k h => viaWrite_port_causesGrow c p v s d k h⟩
  case composite => rw [composite_eq, hvia, Via.portRead]
  case output => rw [irqOut_eq, hvia, Via.portRead]

theorem feed_companionVia (k : Companion) (p : Port) (v : Byte) (s : State) :
    feed (companionVia k) p v s = if (k, p) ∈ s.cfg.scFeed then scWriteByte v k s else s := by
  simp only [feed, companionOf_companionVia, List.contains_iff_mem]

/-- Settles O18: a port write is the output latch, then `feed`, which is nothing for VIA 1 and for the others what SC_FEED
says. -/
theorem portWrite : Obligations.PortWrite := by
  intro s c p v
  refine ⟨?via1, fun k hc => ⟨fun hmem => ?fed, fun hmem => ?notFed⟩⟩
  case via1 =>
    rintro rfl
    exact viaWrite_portOffset .via1 p v s
  case fed => rw [viaWrite_portOffset, hc, feed_companionVia, if_pos (by rwa [State.setVia_cfg])]
  case notFed => rw [viaWrite_portOffset, hc, feed_companionVia, if_neg (by rwa [State.setVia_cfg])]

/-! ### The other registers -/

/-- Bits of a seven-bit register after the ones of a mask are set. -/
theorem getLsbD_or_setWidth7 (r : BitVec 7) (b : Byte) {k : Nat} (hk : k < 7) :
    (r ||| b.setWidth 7).getLsbD k = (r.getLsbD k || b.getLsbD k) := by
  simp [hk]

/-- Bits of a seven-bit register after the ones of a mask are cleared. -/
theorem getLsbD_and_not_setWidth7 (r : BitVec 7) (b : Byte) {k : Nat} (hk : k < 7) :
    (r &&& ~~~(b.setWidth 7)).getLsbD k = (r.getLsbD k && !b.getLsbD k) := by
  simp [hk]

/-- Settles O19: `writeIer` sets or clears the bits of its mask, and a read is the enable bits under a one. -/
theorem enableRegister : Obligations.EnableRegister := by
  intro s c v
  refine ⟨?write, (s.via c).ierByte, rfl, getLsbD_ierByte _ 7 (by decide), fun k hk => ?bits⟩
  case write =>
    have hw : viaWrite c 0xE v s = s.setVia c ((s.via c).writeIer v) := rfl
    rw [hw, Via.writeIer]
    split
    · exact ⟨_, rfl, fun k hk => getLsbD_or_setWidth7 _ v hk⟩
    · exact ⟨_, rfl, fun k hk => getLsbD_and_not_setWidth7 _ v hk⟩
  case bits => rw [getLsbD_ierByte _ k (by omega), if_pos hk]

/-- The offsets that Table 48-1 does not describe (R214). -/
theorem viaReg_undescribed {o : BitVec 4} (h4 : 0x4 ≤ o.toNat) (hC : o ≠ 0xC) (hD : o ≠ 0xD) (hE : o ≠ 0xE) :
    viaReg o = .undescribed := by
  revert o
  decide

/-- Settles O20: what each offset names, and the bits of the flags register. -/
theorem otherRegisters : Obligations.OtherRegisters := by
  intro s c v
  refine ⟨rfl, rfl, rfl, rfl, rfl, rfl, ⟨_, rfl, fun k hk => getLsbD_and_not_setWidth7 _ v hk⟩,
    ⟨(s.via c).ifrByte, rfl, ?top, fun k hk => ?bits⟩, fun o h4 hC hD hE => ?undescribed⟩
  case top => rw [getLsbD_ifrByte _ 7 (by decide), if_neg (by decide), composite_eq]
  case bits => rw [getLsbD_ifrByte _ k (by omega), if_pos hk]
  case undescribed =>
    rw [viaWrite, viaRead, viaReg_undescribed h4 hC hD hE]
    exact ⟨rfl, rfl⟩

/-! ### Control line 1 and the interrupt line -/

/-- The port value takes each bit from the output latch where the direction mask has a one, from the pin elsewhere (R213). -/
theorem getLsbD_portValue (v : Via) (p : Port) {k : Nat} (hk : k < 8) :
    (v.portValue p).getLsbD k = if (v.ddr p).getLsbD k = true then (v.outLatch p).getLsbD k else (v.pin p).getLsbD k := by
  simp only [Via.portValue, BitVec.getLsbD_or, BitVec.getLsbD_and, BitVec.getLsbD_not, hk, decide_true, Bool.true_and]
  cases (v.ddr p).getLsbD k <;> simp

/-- Settles O21: `cl1_latches_iff` says when an assertion latches. -/
theorem controlLineAssertion : Obligations.ControlLineAssertion := by
  intro s c
  rw [assertCl1, Via.assertCl1]
  refine ⟨fun h => ?latches, fun h => ?idle⟩
  case latches =>
    rw [if_pos ((cl1_latches_iff _ _).2 h)]
    exact ⟨_, _, rfl, fun k hk => getLsbD_portValue _ _ hk, fun k hk => getLsbD_setBit7 _ _ k hk⟩
  case idle => rw [if_neg (mt (cl1_latches_iff _ _).1 h)]

theorem ifr_ne_zero_iff (v : Via) : v.ifr ≠ 0 ↔ ∃ k : Fin 7, v.ifr.getLsbD k.val = true := by
  rw [Ne, ← not_iff_not, not_not, not_exists]
  refine ⟨fun h k => by simp [h], fun h => BitVec.eq_of_getLsbD_eq fun k hk => ?_⟩
  exact (Bool.eq_false_of_not_eq_true (h ⟨k, hk⟩)).trans BitVec.getLsbD_zero.symm

/-- IRQ_n is low exactly while a chip's output is (R222). -/
theorem irqN_eq_false_iff (s : State) : s.irqN = false ↔ ∃ c, (s.via c).irqOut = false := by
  simp only [State.irqN, Bool.and_eq_false_iff, or_assoc]
  refine ⟨?_, fun ⟨c, h⟩ => ?_⟩
  · rintro (h | h | h)
    · exact ⟨.via1, h⟩
    · exact ⟨.via2, h⟩
    · exact ⟨.via3, h⟩
  · cases c with
    | via1 => exact .inl h
    | via2 => exact .inr (.inl h)
    | via3 => exact .inr (.inr h)

/-- Settles O22: a cause bit is set exactly while the cause bits are not all zero; the enable register enters none of it. -/
theorem interruptLine : Obligations.InterruptLine := by
  refine ⟨fun v => ⟨?composite, ?byte, rfl⟩, fun v e => rfl, irqN_eq_false_iff⟩
  case composite =>
    rw [composite_eq]
    exact decide_eq_decide.2 (ifr_ne_zero_iff v)
  case byte => rw [getLsbD_ifrByte v 7 (by decide), if_neg (by decide)]

end Sys2Proof.Machine
end

section
/-! PROOFS. The storage controller: the byte protocol, commits and whole transfers (spec/49_storage_controller.md R236 to
R258). -/

namespace Sys2Proof.Machine

/-! ### The byte protocol -/

theorem toNat_setWidth22 (b : Byte) : (b.setWidth 22).toNat = b.toNat := by
  have := b.isLt
  rw [BitVec.toNat_setWidth]
  omega

/-- The second byte enters the scratch value at bit 8. -/
theorem toNat_setWidth22_shift8 (b : Byte) : (b.setWidth 22 <<< 8).toNat = b.toNat * 256 := by
  have := b.isLt
  rw [BitVec.toNat_shiftLeft, toNat_setWidth22, Nat.shiftLeft_eq]
  omega

/-- The low six bits of the third byte enter it at bit 16. -/
theorem toNat_setWidth22_low6_shift16 (b : Byte) : ((b.setWidth 22 &&& 0x3F#22) <<< 16).toNat = b.toNat % 64 * 65536 := by
  have hmask : b.toNat &&& 0x3F = b.toNat % 64 := Nat.and_two_pow_sub_one_eq_mod b.toNat 6
  rw [BitVec.toNat_shiftLeft, BitVec.toNat_and, toNat_setWidth22, Nat.shiftLeft_eq]
  show (b.toNat &&& 0x3F) * 65536 % 4194304 = _
  omega

/-! What `scWriteByte` does in each phase (R236, R237). -/

section Phases

variable {s : State} (b : Byte) (c : Companion)

theorem scWriteByte_byte0 (h : s.sc.phase = .byte0) :
    scWriteByte b c s = s.setSc { s.sc with scratch := s.sc.scratch ||| b.setWidth 22, phase := .byte1 } := by
  rw [scWriteByte, h]

theorem scWriteByte_byte1 (h : s.sc.phase = .byte1) :
    scWriteByte b c s = s.setSc { s.sc with scratch := s.sc.scratch ||| (b.setWidth 22 <<< 8), phase := .byte2 } := by
  rw [scWriteByte, h]

theorem scWriteByte_byte2 (h : s.sc.phase = .byte2) :
    scWriteByte b c s =
      (let s1 := s.setSc
        { s.sc with
          scratch := s.sc.scratch ||| ((b.setWidth 22 &&& 0x3F#22) <<< 16),
          dir := if b.getLsbD 6 then .send else .receive, phase := .byte0 }
       if b.getLsbD 7 then scCommit c s1 else s1) := by
  rw [scWriteByte, h]

end Phases

/-- Settles O23: each phase's scratch value as a number. -/
theorem byteProtocol : Obligations.ByteProtocol := by
  intro s b c
  refine ⟨fun h => ⟨_, scWriteByte_byte0 b c h, ?first⟩, fun h => ⟨_, scWriteByte_byte1 b c h, ?second⟩,
    fun h => ⟨_, scWriteByte_byte2 b c h, ?third⟩⟩
  case first => rw [BitVec.toNat_or, toNat_setWidth22]
  case second => rw [BitVec.toNat_or, toNat_setWidth22_shift8]
  case third => rw [BitVec.toNat_or, toNat_setWidth22_low6_shift16]

/-! ### Commits, one lemma for each latch that is next (R238, R240) -/

section Commits

variable {s : State} (c : Companion)

theorem scCommit_dsr (hd : s.sc.dsrSet = false) :
    scCommit c s = s.setSc { s.sc with dsr := s.sc.scratch.setWidth 16, dsrSet := true, scratch := 0 } := by
  rw [scCommit, if_pos hd]

theorem scCommit_ar (hd : s.sc.dsrSet = true) (ha : s.sc.arSet = false) :
    scCommit c s = s.setSc { s.sc with ar := s.sc.scratch, arSet := true, scratch := 0 } := by
  rw [scCommit, if_neg (by simp [hd]), if_pos ha]

theorem scCommit_olr (hd : s.sc.dsrSet = true) (ha : s.sc.arSet = true) (ho : s.sc.olrSet = false) :
    scCommit c s =
      scStart c (s.setSc { s.sc with olr := s.sc.scratch.setWidth 11, olrSet := true, scratch := 0 }) := by
  rw [scCommit, if_neg (by simp [hd]), if_neg (by simp [ha]), if_pos ho]

theorem scCommit_full (hd : s.sc.dsrSet = true) (ha : s.sc.arSet = true) (ho : s.sc.olrSet = true) :
    scCommit c s = s.setSc { s.sc with scratch := 0 } := by
  rw [scCommit, if_neg (by simp [hd]), if_neg (by simp [ha]), if_neg (by simp [ho])]

end Commits

/-- Settles O24: the four commits, the third of which starts the transfer of its companion. -/
theorem commit : Obligations.Commit := by
  intro s c
  refine ⟨fun hd => ?_, fun hd ha => scCommit_ar c hd ha, fun hd ha ho => ⟨?_, ?_⟩,
    fun hd ha ho => scCommit_full c hd ha ho⟩
  · rw [BitVec.ofNat_toNat]
    exact scCommit_dsr c hd
  all_goals
    rw [BitVec.ofNat_toNat]
    exact scCommit_olr _ hd ha ho

/-! ### A whole transfer -/

/-- Settles O25: `scTransfer_eq`, and the range a run of copies writes (`scCopyRun_receive`, `scCopyRun_send`). -/
theorem transferMovesBytes : Obligations.TransferMovesBytes := by
  intro s hm hst
  have hlen : 0 + s.sc.olr.toNat ≤ 2048 := by have := s.sc.olr.isLt; omega
  refine ⟨_, _, scTransfer_eq s, fun hd => ?receive, fun hd => ?send⟩
  case receive =>
    obtain ⟨hmem, -, hread⟩ := scCopyRun_receive s.sc.olr.toNat 0 s hd hst hlen
    exact ⟨hmem, by simpa using hread⟩
  case send =>
    obtain ⟨hstore, -, hread⟩ := scCopyRun_send s.sc.olr.toNat 0 s hd hm hlen
    refine ⟨hstore, fun b => ?_⟩
    have hb := hread b
    simpa [ramRead] using hb

/-- The index of an address in a range is how far it was counted from the start. -/
theorem toNat_add_ofNat_sub (a : Addr) {i : Nat} (hi : i < 2048) : (a + BitVec.ofNat 16 i - a).toNat = i :=
  (addr_index hi _ _).1 rfl

theorem toNat_storeAddr_add_ofNat_sub (a : StoreAddr) {i : Nat} (hi : i < 2048) : (a + BitVec.ofNat 22 i - a).toNat = i :=
  (storeAddr_index hi _ _).1 rfl

/-- A transfer keeps both memories in canonical form. -/
theorem scTransfer_wf {s : State} (hm : s.mem.wf 65536 = true) (hst : s.store.wf 4194304 = true) :
    (scTransfer s).mem.wf 65536 = true ∧ (scTransfer s).store.wf 4194304 = true := by
  rw [scTransfer_eq, assertCl1, State.setVia_mem, State.setVia_store]
  exact scCopyRun_wf _ 0 hm hst

/-- The store byte `AR + i` after a receive. -/
theorem store_scTransfer_receive {s : State} (hm : s.mem.wf 65536 = true) (hst : s.store.wf 4194304 = true)
    (hd : s.sc.dir = .receive) {i : Nat} (hi : i < s.sc.olr.toNat) :
    (scTransfer s).store.read (s.sc.ar + BitVec.ofNat 22 i).toNat = ramRead (s.sc.dsr + BitVec.ofNat 16 i) s := by
  have hlt : i < 2048 := by have := s.sc.olr.isLt; omega
  obtain ⟨m, st, htr, hreceive, -⟩ := transferMovesBytes s hm hst
  rw [htr, assertCl1, State.setVia_store, (hreceive hd).2, toNat_storeAddr_add_ofNat_sub _ hlt, if_pos hi]

/-- The Bus byte `DSR + i` after a send. -/
theorem ramRead_scTransfer_send {s : State} (hm : s.mem.wf 65536 = true) (hst : s.store.wf 4194304 = true)
    (hd : s.sc.dir = .send) {i : Nat} (hi : i < s.sc.olr.toNat) :
    ramRead (s.sc.dsr + BitVec.ofNat 16 i) (scTransfer s) = s.store.read (s.sc.ar + BitVec.ofNat 22 i).toNat := by
  have hlt : i < 2048 := by have := s.sc.olr.isLt; omega
  obtain ⟨m, st, htr, -, hsend⟩ := transferMovesBytes s hm hst
  rw [ramRead, htr, assertCl1, State.setVia_mem, (hsend hd).2, toNat_add_ofNat_sub _ hlt, if_pos hi]

/-- Settles O26: the send reads the store bytes that the receive wrote. -/
theorem transferRoundTrip : Obligations.TransferRoundTrip := by
  intro s t hm hst hreceive htm htst hsend har holr i hi
  obtain ⟨hm', hst'⟩ := scTransfer_wf hm hst
  calc ramRead (t.sc.dsr + BitVec.ofNat 16 i) (scTransfer t)
    _ = t.store.read (t.sc.ar + BitVec.ofNat 22 i).toNat :=
      ramRead_scTransfer_send (htm ▸ hm') (htst ▸ hst') hsend (holr ▸ hi)
    _ = (scTransfer s).store.read (s.sc.ar + BitVec.ofNat 22 i).toNat := by rw [htst, har]
    _ = ramRead (s.sc.dsr + BitVec.ofNat 16 i) s := store_scTransfer_receive hm hst hreceive hi

/-! ### Byte by byte -/

/-- One DmaStep at a byte still to be moved. -/
theorem dmaStep_perByte {s : State} (hg : s.cfg.dmaGranularity = .perByte) (hi : s.sc.xferI < s.sc.olr.toNat) :
    dmaStep s = (scCopyByte s.sc.xferI s).setSc { s.sc with xferI := s.sc.xferI + 1 } := by
  rw [dmaStep, hg]
  simp only [if_pos hi, scCopyByte_sc]

/-- One DmaStep past the last byte. -/
theorem dmaStep_perByte_last {s : State} (hg : s.cfg.dmaGranularity = .perByte) (hi : s.sc.xferI = s.sc.olr.toNat) :
    dmaStep s = scFinish s := by
  rw [dmaStep, hg]
  simp only [if_neg (show ¬ s.sc.xferI < s.sc.olr.toNat by omega)]

theorem dmaSteps_idle {s : State} (h : s.sc.busy = false) (n : Nat) : dmaSteps n s = s := by
  cases n with
  | zero => rfl
  | succ n => rw [dmaSteps, if_neg (by simp [h])]

theorem dmaSteps_one {s : State} (h : s.sc.busy = true) : dmaSteps 1 s = dmaStep s := by
  rw [dmaSteps, if_pos h, dmaSteps]

theorem dmaSteps_add (m n : Nat) : ∀ s : State, dmaSteps (m + n) s = dmaSteps n (dmaSteps m s) := by
  induction m with
  | zero => exact fun s => by rw [Nat.zero_add, dmaSteps]
  | succ m ih =>
    intro s
    cases hb : s.sc.busy with
    | false => rw [dmaSteps_idle hb, dmaSteps_idle hb, dmaSteps_idle hb]
    | true => rw [Nat.add_right_comm, dmaSteps, if_pos hb, ih, dmaSteps, if_pos hb]

/-- Byte by byte, the DmaSteps that do not yet end a transfer are a run of its copies, counted in XFER_I (R245). -/
theorem dmaSteps_perByte (k : Nat) : ∀ {s : State}, s.sc.busy = true → s.cfg.dmaGranularity = .perByte →
    s.sc.xferI + k ≤ s.sc.olr.toNat →
    dmaSteps k s = (scCopyRun s.sc.xferI k s).setSc { s.sc with xferI := s.sc.xferI + k } := by
  induction k with
  | zero => exact fun _ _ _ => rfl
  | succ k ih =>
    intro s hb hg hk
    have hstep := dmaStep_perByte hg (show s.sc.xferI < s.sc.olr.toNat by omega)
    have hcfg : (dmaStep s).cfg = s.cfg := (dmaStep_sameCpu s).cfg
    rw [dmaSteps, if_pos hb, ih (by rw [hstep]; exact hb) (by rw [hcfg, hg]) (by rw [hstep]; simp; omega), hstep]
    have hrun := scCopyRun_setXferI (s.sc.xferI + 1) k (s.sc.xferI + 1) (scCopyByte s.sc.xferI s)
    rw [scCopyByte_sc] at hrun
    simp only [State.setSc_sc, hrun, scCopyRun, Nat.add_assoc s.sc.xferI 1 k, Nat.add_comm 1 k]
    rfl

/-- The end of a transfer does not look at XFER_I. -/
theorem scFinish_setXferI (k : Nat) (s : State) : scFinish (s.setSc { s.sc with xferI := k }) = scFinish s := by
  rw [scFinish_eq, scFinish_eq]
  rfl

/-- Settles O28: the steps before the last are a run of copies (`dmaSteps_perByte`), the last one is the end of the transfer. -/
theorem perByteTransferEqualsWhole : Obligations.PerByteTransferEqualsWhole := by
  intro s hb hx hg
  have hsteps (k : Nat) (hk : k ≤ s.sc.olr.toNat) :
      dmaSteps k s = (scCopyRun 0 k s).setSc { s.sc with xferI := k } := by
    rw [dmaSteps_perByte k hb hg (by omega), hx, Nat.zero_add]
  refine ⟨?whole, fun k hk => ?before, ?rest, ?granularity⟩
  case whole =>
    have hlast := hsteps s.sc.olr.toNat (Nat.le_refl _)
    have hcfg : (dmaSteps s.sc.olr.toNat s).cfg = s.cfg := (dmaSteps_sameCpu _ s).cfg
    have hfinish := scFinish_setXferI s.sc.olr.toNat (scCopyRun 0 s.sc.olr.toNat s)
    rw [scCopyRun_sc] at hfinish
    rw [dmaSteps_add, dmaSteps_one (by rw [hlast]; exact hb),
      dmaStep_perByte_last (by rw [hcfg, hg]) (by rw [hlast]; rfl), hlast, hfinish, scTransfer]
  case before =>
    rw [hsteps k hk]
    exact ⟨fun c => by rw [State.setSc_via, scCopyRun_via], rfl⟩
  case rest => exact (scFinish_rest _).1
  case granularity => exact dmaSteps_one hb

/-! ### Nine bytes to the feed port of VIA 2 -/

/-- The scratch value that three bytes spell from zero (R236). -/
def spelled (b0 b1 b2 : Byte) : BitVec 22 :=
  b0.setWidth 22 ||| (b1.setWidth 22 <<< 8) ||| ((b2.setWidth 22 &&& 0x3F#22) <<< 16)

theorem spelled_toNat (b0 b1 b2 : Byte) :
    (spelled b0 b1 b2).toNat = b0.toNat + b1.toNat * 256 + b2.toNat % 64 * 65536 := by
  have h0 := b0.isLt
  have h1 := b1.isLt
  have hlow : b0.toNat ||| b1.toNat * 256 = b1.toNat * 256 + b0.toNat := by
    rw [Nat.or_comm, show b1.toNat * 256 = b1.toNat <<< 8 from (Nat.shiftLeft_eq _ 8).symm, Nat.shiftLeft_add_eq_or_of_lt h0]
  have hhigh : (b1.toNat * 256 + b0.toNat) ||| b2.toNat % 64 * 65536 =
      b2.toNat % 64 * 65536 + (b1.toNat * 256 + b0.toNat) := by
    rw [Nat.or_comm, show b2.toNat % 64 * 65536 = (b2.toNat % 64) <<< 16 from (Nat.shiftLeft_eq _ 16).symm,
      Nat.shiftLeft_add_eq_or_of_lt (by omega)]
  rw [spelled, BitVec.toNat_or, BitVec.toNat_or, toNat_setWidth22, toNat_setWidth22_shift8, toNat_setWidth22_low6_shift16,
    hlow, hhigh]
  omega

/-- The direction that bit 6 of a third byte sets (R237). -/
def directionOf (b : Byte) : Direction := if b.getLsbD 6 then .send else .receive

/-- After a byte written to a port of VIA 2: the output latch (R205). -/
def latched (p : Port) (b : Byte) (s : State) : State := s.setVia .via2 (s.via2.setOutLatch p b)

/-- Only the last byte stays in the latch. -/
theorem latched_latched (p : Port) (b b' : Byte) (s : State) : latched p b' (latched p b s) = latched p b' s := by
  cases p <;> rfl

theorem latched_setSc (p : Port) (b : Byte) (k : StorageCtl) (s : State) :
    latched p b (s.setSc k) = (latched p b s).setSc k := rfl

theorem setSc_setSc (k k' : StorageCtl) (s : State) : (s.setSc k).setSc k' = s.setSc k' := rfl

section Feed

variable {s : State} {p : Port} (b0 b1 : Byte) {b2 : Byte} (hfeed : (Companion.via2, p) ∈ s.cfg.scFeed)
  (hphase : s.sc.phase = .byte0) (hscratch : s.sc.scratch = 0) (h7 : b2.getLsbD 7 = true)
include hfeed hphase hscratch h7

/-- Three bytes from a controller at rest are one commit of the value they spell. -/
theorem feedBytes_commit :
    feedBytes .via2 p [b0, b1, b2] s = scCommit .via2 ((latched p b2 s).setSc
      { s.sc with scratch := spelled b0 b1 b2, dir := directionOf b2 }) := by
  have hzero : 0 ||| b0.setWidth 22 = b0.setWidth 22 := BitVec.zero_or
  rw [feedBytes_three s p b0 b1 b2 hfeed hphase h7, hscratch, hzero, ← hphase]
  rfl

theorem feedBytes_dsr (hd : s.sc.dsrSet = false) :
    feedBytes .via2 p [b0, b1, b2] s = (latched p b2 s).setSc
      { s.sc with dsr := (spelled b0 b1 b2).setWidth 16, dsrSet := true, scratch := 0, dir := directionOf b2 } := by
  rw [feedBytes_commit b0 b1 hfeed hphase hscratch h7, scCommit_dsr .via2 (by exact hd)]
  rfl

theorem feedBytes_ar (hd : s.sc.dsrSet = true) (ha : s.sc.arSet = false) :
    feedBytes .via2 p [b0, b1, b2] s = (latched p b2 s).setSc
      { s.sc with ar := spelled b0 b1 b2, arSet := true, scratch := 0, dir := directionOf b2 } := by
  rw [feedBytes_commit b0 b1 hfeed hphase hscratch h7, scCommit_ar .via2 (by exact hd) (by exact ha)]
  rfl

theorem feedBytes_olr (hd : s.sc.dsrSet = true) (ha : s.sc.arSet = true) (ho : s.sc.olrSet = false) :
    feedBytes .via2 p [b0, b1, b2] s = scTransfer ((latched p b2 s).setSc
      { s.sc with
        olr := (spelled b0 b1 b2).setWidth 11, olrSet := true, scratch := 0, dir := directionOf b2, comp := .via2 }) := by
  rw [feedBytes_commit b0 b1 hfeed hphase hscratch h7, scCommit_olr .via2 (by exact hd) (by exact ha) (by exact ho)]
  rfl

end Feed

theorem feedBytes_append (c : ViaId) (p : Port) (l k : List Byte) (s : State) :
    feedBytes c p (l ++ k) s = feedBytes c p k (feedBytes c p l s) := List.foldl_append

/-! The three values of a transfer's program: an offset of Bus memory, an offset of the store, a length. -/

/-- Bits 7 and 6 of a third byte: commit, and the direction (R237). -/
def tagOf (send : Bool) : Byte := if send then 0xC0 else 0x80

theorem directionOf_tagOf (send : Bool) : directionOf (tagOf send) = if send then .send else .receive := by
  cases send <;> rfl

theorem tagOf_low6 (send : Bool) : (tagOf send).toNat % 64 = 0 := by
  cases send <;> rfl

theorem tagOf_or_low6 (send : Bool) (v : BitVec 6) :
    (tagOf send ||| v.setWidth 8).toNat % 64 = v.toNat := by
  have hv := v.isLt
  rw [BitVec.toNat_or, BitVec.toNat_setWidth, Nat.or_mod_two_pow (n := 6), tagOf_low6, Nat.zero_or]
  omega

theorem spelled_dsr (d : Addr) (send : Bool) : (spelled (lo8 d) (hi8 d) (tagOf send)).setWidth 16 = d := by
  have hd := d.isLt
  refine BitVec.eq_of_toNat_eq ?_
  rw [BitVec.toNat_setWidth, spelled_toNat, lo8_toNat, hi8_toNat, tagOf_low6]
  omega

theorem spelled_ar (a : StoreAddr) (send : Bool) :
    spelled (a.extractLsb' 0 8) (a.extractLsb' 8 8) (tagOf send ||| (a.extractLsb' 16 6).setWidth 8) = a := by
  have ha := a.isLt
  refine BitVec.eq_of_toNat_eq ?_
  rw [spelled_toNat, tagOf_or_low6]
  simp only [BitVec.extractLsb'_toNat, Nat.shiftRight_eq_div_pow]
  omega

theorem spelled_olr (n : BitVec 11) (send : Bool) :
    (spelled (n.extractLsb' 0 8) ((n.extractLsb' 8 3).setWidth 8) (tagOf send)).setWidth 11 = n := by
  have hn := n.isLt
  refine BitVec.eq_of_toNat_eq ?_
  rw [BitVec.toNat_setWidth, spelled_toNat, tagOf_low6]
  simp only [BitVec.toNat_setWidth, BitVec.extractLsb'_toNat, Nat.shiftRight_eq_div_pow]
  omega

/-- Settles O27: three commits, of which the last starts the transfer through VIA 2 (`feedBytes_olr`). -/
theorem nineWritesTransfer : Obligations.NineWritesTransfer := by
  intro s p d a n send hfeed hphase hscratch hd ha ho
  refine ⟨?_, rfl⟩
  have h7 : (tagOf send).getLsbD 7 = true := by cases send <;> rfl
  have h7a : (tagOf send ||| (a.extractLsb' 16 6).setWidth 8).getLsbD 7 = true := by
    rw [BitVec.getLsbD_or, h7, Bool.true_or]
  show feedBytes .via2 p ([lo8 d, hi8 d, tagOf send] ++
    [a.extractLsb' 0 8, a.extractLsb' 8 8, tagOf send ||| (a.extractLsb' 16 6).setWidth 8] ++
    [n.extractLsb' 0 8, (n.extractLsb' 8 3).setWidth 8, tagOf send]) s = _
  rw [feedBytes_append, feedBytes_append, feedBytes_dsr _ _ hfeed hphase hscratch h7 hd, spelled_dsr,
    feedBytes_ar _ _ (by exact hfeed) (by exact hphase) rfl h7a rfl (by exact ha), spelled_ar,
    feedBytes_olr _ _ (by exact hfeed) (by exact hphase) rfl h7 rfl rfl (by exact ho), spelled_olr]
  simp only [latched_setSc, latched_latched, setSc_setSc, State.setSc_sc, directionOf_tagOf, ← hscratch]
  rfl

end Sys2Proof.Machine
end

section
/-! PROOFS. Interrupt entries, the check that takes them and the return that undoes them (spec/60_exceptions.md R270 to
R280). -/

namespace Sys2Proof.Machine

/-- The status byte a hardware entry pushes: U set, B clear (R272). -/
def entryStatus (p : Byte) : Byte := (p ||| 0x20) &&& 0xEF

theorem interruptEntry_eq (vec : Addr) (s : State) : interruptEntry vec s = takeException s.pc (entryStatus s.p) vec s := rfl

theorem flagsBecome_entryStatus (p : Byte) : flagsBecome p (entryStatus p) [(.u, true), (.b, false)] := by
  have hset : setFlag (setFlag p .u true) .b false = entryStatus p := rfl
  have hflags := flagsBecome_cons (flagsBecome_setFlag p .u true) .b false (by decide)
  exact hset ▸ flagsBecome_congr hflags (by simp [or_comm])

/-- Settles O49: a hardware entry is an exception taken with the status byte `entryStatus`. -/
theorem interruptEntry_enters : Obligations.InterruptEntry := by
  intro s vec hq hvec
  exact ⟨_, flagsBecome_entryStatus s.p, enters_takeException hq s.pc _ (hvec.imp_right .inr)⟩

/-- The bytes that an RTI right after an entry pulls. -/
theorem read_entryMem_pulled {s : State} (hw : s.mem.wf 65536 = true) (ret : Addr) (status : Byte) :
    (entryMem ret status s).read (mk16 s.cfg.stackPage (s.sp - 3 + 1)).toNat = status ∧
      (entryMem ret status s).read (mk16 s.cfg.stackPage (s.sp - 3 + 2)).toNat = lo8 ret ∧
      (entryMem ret status s).read (mk16 s.cfg.stackPage (s.sp - 3 + 3)).toNat = hi8 ret := by
  have h1 : s.sp - 3 + 1 = s.sp - 2 := by bv_omega
  have h2 : s.sp - 3 + 2 = s.sp - 1 := by bv_omega
  have n1 : mk16 s.cfg.stackPage (s.sp - 1) ≠ stackAddr s := stack_ne (by bv_omega)
  have n2 : mk16 s.cfg.stackPage (s.sp - 2) ≠ stackAddr s := stack_ne (by bv_omega)
  have n3 : mk16 s.cfg.stackPage (s.sp - 2) ≠ mk16 s.cfg.stackPage (s.sp - 1) := stack_ne (by bv_omega)
  rw [h1, h2, BitVec.sub_add_cancel, read_entryMem hw, read_entryMem hw, read_entryMem hw]
  exact ⟨by rw [if_neg n2, if_neg n3, if_pos rfl], by rw [if_neg n1, if_pos rfl], if_pos rfl⟩

/-- A status byte pushed by an entry and pulled by RTI: all flags as before, but U and B are clear. -/
theorem flagsBecome_pulled_entryStatus (p : Byte) : flagsBecome p (entryStatus p &&& 0xCF) [(.u, false), (.b, false)] := by
  obtain ⟨-, hkept⟩ := flagsBecome_entryStatus p
  obtain ⟨hclear, hkept'⟩ := flagsBecome_pulledStatus (entryStatus p)
  exact ⟨hclear, fun f hf => (hkept' f hf).trans (hkept f hf)⟩

/-- Settles O51: RTI finds on the stack what the entry pushed (`read_entryMem_pulled`). -/
theorem entryThenReturn : Obligations.EntryThenReturn := by
  intro s u vec hq hw hvec hu
  obtain ⟨h0, h1⟩ := plainAddr_vector hq.1 (hvec.imp_right .inr)
  obtain ⟨hstatus, hlo, hhi⟩ := read_entryMem_pulled hw s.pc (entryStatus s.p)
  have hrti (t : State) : exec .rti t = .next (returnFromException t) := rfl
  rw [interruptEntry_eq, takeException_quiet hq _ _ h0 h1, hrti, returnFromException_quiet (by exact hq)] at hu
  obtain rfl := Host.Outcome.next.inj hu
  refine ⟨?pc, BitVec.sub_add_cancel s.sp 3, ?flags, rfl, rfl, rfl⟩
  case pc => exact (congrArg₂ mk16 hhi hlo).trans (mk16_hi8_lo8 s.pc)
  case flags =>
    have hp := flagsBecome_pulled_entryStatus s.p
    rw [← hstatus] at hp
    exact hp

/-- IRQ_n is low exactly while a cause bit is set in one of the chips (R222). -/
theorem irqN_low_iff (s : State) : s.irqN = false ↔ ∃ c, (s.via c).ifr ≠ 0 := by
  simp only [irqN_eq_false_iff, irqOut_eq, decide_eq_false_iff_not, ne_eq]

theorem interruptCheck_nmi {s : State} (h : s.nmiLatch = true) :
    interruptCheck s = interruptEntry s.cfg.vecNmi (s.setNmiLatch false) := by
  rw [interruptCheck, if_pos h]

theorem interruptCheck_irq {s : State} (hn : s.nmiLatch = false) (hi : s.irqN = false) (hf : getFlag s.p .i = false) :
    interruptCheck s = interruptEntry s.cfg.vecIrq s := by
  rw [interruptCheck, if_neg (by simp [hn]), if_pos (by simp [hi, hf])]

theorem interruptCheck_none {s : State} (hn : s.nmiLatch = false) (h : s.irqN = true ∨ getFlag s.p .i = true) :
    interruptCheck s = s := by
  rw [interruptCheck, if_neg (by simp [hn]), if_neg (by rcases h with h | h <;> simp [h])]

/-- Settles O50: the three answers of the check, the IRQ line read off the cause bits (`irqN_low_iff`). -/
theorem interruptCheckOrder : Obligations.InterruptCheckOrder := by
  intro s
  refine ⟨interruptCheck_nmi, fun hn hc => interruptCheck_irq hn ((irqN_low_iff s).2 hc),
    fun hn h => interruptCheck_none hn (h.imp_left fun hc => ?_)⟩
  rw [← Bool.not_eq_false, irqN_low_iff]
  exact fun ⟨c, h⟩ => h (hc c)

end Sys2Proof.Machine
end

section
/-! PROOFS. Power-on, the reset step and the invariant at reset (spec/70_reset_and_hazards.md R300 to R304). -/

namespace Sys2Proof.Machine

/-- Settles O8: nothing is listed in either memory, and no register of a device holds a one. -/
theorem resetMeetsInvariant : Obligations.ResetMeetsInvariant := by
  have hvia : Via.powerOn.disciplined defaultConfig := by decide
  have hsc : StorageCtl.powerOn.disciplined := by decide
  exact ⟨rfl, rfl, hsc, hvia, hvia, hvia⟩

/-- A CPU reset with no transfer in flight reads PC from the reset vector, in Bus memory (R300). -/
theorem cpuReset_quiet {s : State} (hq : s.quiet) :
    cpuReset s =
      { s with
        a := s.cfg.resetA, x := s.cfg.resetX, y := s.cfg.resetY, sp := s.cfg.resetSp, p := s.cfg.resetP,
        pc := ramWord s.cfg.vecReset s, cyc := s.cyc + s.cfg.resetCycles, nmiLatch := false } := by
  obtain ⟨h0, h1⟩ := plainAddr_vector hq.1 (.inr (.inl rfl))
  simp only [cpuReset]
  rw [read16_quiet (by exact hq) (by exact h0) (by exact h1)]
  rfl

theorem step_reset {s : State} (hc : configOk s.cfg = true) (hs : s.script = []) (hp : s.lines.power = true)
    (hr : s.lines.ready = true) (hn : s.lines.resetN = false) : step s = .next (resetStep s) := by
  rw [step_cpu hc hp hs]
  simp [cpuStep, hr, hn]

/-- Settles O7: `cpuReset_quiet`, then the clearing of memory as one action. -/
theorem resetStep_reseeds : Obligations.ResetStep := by
  intro s hq hs hp hr hn
  refine ⟨s.mem.clearBelow s.cfg.romBase.toNat, ?_, fun b => Memory.read_clearBelow _ _ _⟩
  rw [step_reset hq.1 hs hp hr hn, resetStep, cpuReset_quiet hq, clearRam, if_neg (by simp [hq.2])]
  rfl

/-- What an image loaded into empty memory reads as. -/
theorem read_load_empty (a b : Nat) (l : List Byte) :
    (Memory.load [] a l).read b = if b < a then 0 else l.getD (b - a) 0 := by
  rw [Memory.read_load rfl]
  by_cases hb : b < a
  · rw [if_neg (by omega), if_pos hb]
    rfl
  · rw [if_neg hb]
    split
    · rfl
    · rw [List.getD_eq_default _ _ (by omega)]
      rfl

/-- The machine before its one reset at power-on, the two images loaded (R304). -/
def loaded (c : Config) (rom st : List Byte) : State :=
  { State.reset with cfg := c, mem := Memory.load [] c.romBase.toNat rom, store := Memory.load [] 0 st, cyc := 0 }

theorem powerOn_eq {c : Config} {rom st : List Byte} (hrom : rom.length = 65536 - c.romBase.toNat)
    (hst : st.length ≤ 4194304) : powerOn c rom st = cpuReset (loaded c rom st) := by
  rw [powerOn, List.take_of_length_le hrom.le, List.take_of_length_le hst]
  rfl

theorem ramRead_loaded (c : Config) (rom st : List Byte) (b : Addr) :
    ramRead b (loaded c rom st) = if b.toNat < c.romBase.toNat then 0 else rom.getD (b.toNat - c.romBase.toNat) 0 :=
  read_load_empty _ _ _

/-- A vector pair at power-on: its bytes lie in the ROM image (R7, R300). -/
theorem ramWord_vecReset_loaded {c : Config} (hc : configOk c = true) (rom st : List Byte) :
    ramWord c.vecReset (loaded c rom st) =
      mk16 (rom.getD (c.vecReset.toNat + 1 - c.romBase.toNat) 0) (rom.getD (c.vecReset.toNat - c.romBase.toNat) 0) := by
  obtain ⟨hlo, hhi⟩ := configOk_vector hc (.inr (.inl rfl))
  have hnext : (c.vecReset + 1).toNat = c.vecReset.toNat + 1 := by
    rw [BitVec.toNat_add]
    exact Nat.mod_eq_of_lt hhi
  rw [ramWord, ramRead_loaded, ramRead_loaded, hnext, if_neg (by omega), if_neg (by omega)]

/-- Settles O6: power-on is the CPU reset of a machine at rest with the two images loaded. -/
theorem powerOnValues : Obligations.PowerOnValues := by
  intro c rom st hc hrom hst
  rw [powerOn_eq hrom hst, cpuReset_quiet (s := loaded c rom st) ⟨hc, rfl⟩]
  refine ⟨rfl, rfl, rfl, rfl, rfl, rfl, Nat.zero_add _, rfl, ramRead_loaded c rom st, fun k => ?store,
    ramWord_vecReset_loaded hc rom st, fun k => ?via, rfl, rfl, rfl, rfl, rfl, rfl⟩
  case store => exact read_load_empty 0 k.toNat st
  case via => cases k <;> rfl

end Sys2Proof.Machine
end

section
/-! PROOFS. Words written out (spec/30_encoding.md Table 30-3), the turns of the environment and of the DMA agent
(spec/00_scope.md R5, R6), and the end of a program (spec/70_reset_and_hazards.md R325). -/

namespace Sys2Proof.Machine

/-- Settles O4: each list of bytes decodes by computation. -/
theorem knownWordsDecode : Obligations.KnownWordsDecode :=
  ⟨rfl, rfl, rfl, rfl, rfl, rfl, rfl, rfl, rfl, rfl, rfl⟩

/-! ### Whose turn it is -/

section Turns

variable {s : State} {l : List Turn} (hc : configOk s.cfg = true) (hp : s.lines.power = true)
include hc hp

theorem step_env (m : EnvMove) : step { s with script := .env m :: l } = .next (envMove m { s with script := l }) := by
  simp only [step, hc, hp, if_true, Bool.not_true, Bool.false_eq_true, if_false]
  rfl

theorem step_dma : step { s with script := .dma :: l } = .next (dmaSteps 1 { s with script := l }) := by
  simp only [step, hc, hp, if_true, Bool.not_true, Bool.false_eq_true, if_false]
  rfl

theorem step_held (hr : s.lines.ready = false) :
    step { s with script := .cpu :: l } = .next (dmaTurn { s with script := l }) := by
  simp only [step, hc, hp, if_true, Bool.not_true, Bool.false_eq_true, if_false]
  exact cpuStep_held hr

end Turns

/-- Driving NMI_n: its level, and the latch at a falling edge (R265). -/
theorem driveNmi_eq (b : Bool) (s : State) :
    driveNmi b s =
      { s with lines := { s.lines with nmiN := b }, nmiLatch := s.nmiLatch || (s.lines.nmiN && !b) } := by
  rw [driveNmi]
  split
  · next h => rw [h, Bool.or_true]; rfl
  · next h => rw [Bool.eq_false_of_not_eq_true h, Bool.or_false]; rfl

/-! What the DMA agent does at its turn while a transfer is in flight (R245): by its plan, else it waits, else it moves. -/

section AgentTurns

variable {s : State} (hb : s.sc.busy = true)
include hb

theorem dmaTurn_planned {n : Nat} {rest : List Nat} (hplan : s.dmaPlan = n :: rest) :
    dmaTurn s = dmaSteps n (s.setDmaPlan rest) := by
  rw [dmaTurn, if_pos hb, hplan]

theorem dmaTurn_waiting {n : Nat} (hplan : s.dmaPlan = [])
    (hwait : s.dmaWait.getD (Config.dmaDelay s.freeIndex) = n + 1) : dmaTurn s = s.setDmaWait (some n) := by
  rw [dmaTurn, if_pos hb, hplan]
  simp only [dmaFreeTurn, hwait]

theorem dmaTurn_moving (hplan : s.dmaPlan = []) (hwait : s.dmaWait.getD (Config.dmaDelay s.freeIndex) = 0) :
    dmaTurn s = dmaSteps (Config.dmaBurst s.freeIndex + 1) (s.setDmaWait none).drawFree := by
  rw [dmaTurn, if_pos hb, hplan]
  simp only [dmaFreeTurn, hwait]

end AgentTurns

/-- Settles O56: whose turn it is (`step_env`, `step_dma`, `step_held`), and what that agent does. -/
theorem environmentMoves : Obligations.EnvironmentMoves := by
  intro s l b c p v hc hp
  have henv (m : EnvMove) := step_env (l := l) hc hp m
  refine ⟨henv _, henv _, henv _, (henv _).trans (congrArg _ (driveNmi_eq b _)), ?pin, henv _, step_dma hc hp,
    fun hr => ?held⟩
  case pin => cases c <;> exact henv _
  case held =>
    rw [step_held hc hp hr]
    refine ⟨fun hb => congrArg _ (dmaTurn_idle hb),
      fun hb => ⟨fun n rest hplan => ?_, fun n hplan hwait => ?_, fun hplan hwait => ?_⟩⟩
    · exact congrArg _ (dmaTurn_planned (s := { s with script := l }) hb hplan)
    · exact congrArg _ (dmaTurn_waiting (s := { s with script := l }) hb hplan hwait)
    · exact congrArg _ (dmaTurn_moving (s := { s with script := l }) hb hplan hwait)

/-! ### The end of a program -/

/-- A step whose instruction, fetched from Bus memory, goes back to itself, with no interrupt to take (R325). -/
theorem step_selfLoop {s : State} {i : Instr} {rest : List Byte} {n : Nat} (hq : s.quiet) (hrun : s.running)
    (hn : s.nmiLatch = false) (hirq : s.irqN = true ∨ getFlag s.p .i = true)
    (hdec : decodeWith s.cfg.reservedTable [ramRead s.pc s, ramRead (s.pc + 1) s, ramRead (s.pc + 2) s] = .ok (i, rest))
    (hplain : ∀ k, k ≤ i.operandBytes.length → plainAddr s (s.pc + BitVec.ofNat 16 k))
    (hexec : exec i { s with pc := s.pc + BitVec.ofNat 16 (1 + i.operandBytes.length) } = .next (s.charge n)) :
    step s = .next (s.charge n) := by
  obtain ⟨t, ht, hstep⟩ := stepRunsDecoded s i rest hq hrun hdec hplain
  obtain rfl := Host.Outcome.next.inj (ht.symm.trans hexec)
  rw [hstep, interruptCheck_none (s := s.charge n) hn hirq]

/-- BRA with offset -2 goes back to its own address. -/
theorem exec_bra_selfLoop (s : State) :
    exec (.bra 0xFE) { s with pc := s.pc + 2 } =
      .next (s.charge (if s.pc.toNat / 256 = (s.pc + 2).toNat / 256 then 3 else 4)) := by
  have hoffset : (2 : Addr) + sext16 0xFE = 0 := by decide
  have hpc : s.pc + 2 + sext16 0xFE = s.pc := by
    rw [BitVec.add_assoc, hoffset]
    exact BitVec.add_zero s.pc
  have hbra (t : State) : exec (.bra 0xFE) t = .next (branch true 0xFE t) := rfl
  simp only [hbra, branch_taken, hpc, eq_comm (a := (s.pc + 2).toNat / 256)]
  rfl

/-- Settles O58: BRA with offset -2 and JMP to its own address go back to PC, and no interrupt is taken (`step_selfLoop`). -/
theorem selfLoopIsFixedPoint : Obligations.SelfLoopIsFixedPoint := by
  intro s hq hrun hn hirq h0 h1
  have h0' : plainAddr s (s.pc + BitVec.ofNat 16 0) := (BitVec.add_zero s.pc).symm ▸ h0
  refine ⟨fun hop hrel => ?bra, fun hop hlo hhi h2 => ?jmp⟩
  case bra =>
    refine step_selfLoop (i := .bra 0xFE) (rest := [ramRead (s.pc + 2) s]) hq hrun hn hirq ?_ (fun k hk => ?_)
      (exec_bra_selfLoop s)
    · rw [hop, hrel]
      rfl
    · match k, hk with
      | 0, _ => exact h0'
      | 1, _ => exact h1
  case jmp =>
    refine step_selfLoop (i := .jmp (.abs s.pc)) (rest := []) hq hrun hn hirq ?_ (fun k hk => ?_) rfl
    · have hdec : decodeWith s.cfg.reservedTable [0x4C, lo8 s.pc, hi8 s.pc] =
          .ok (.jmp (.abs (mk16 (hi8 s.pc) (lo8 s.pc))), []) := rfl
      rw [hop, hlo, hhi, hdec, mk16_hi8_lo8]
    · match k, hk with
      | 0, _ => exact h0'
      | 1, _ => exact h1
      | 2, _ => exact h2

end Sys2Proof.Machine
end

section
/-! PROOFS. Every asynchronous transfer finishes (spec/49_storage_controller.md R245, D29). A CPU turn begins with a turn of the
DMA agent, at which a transfer in flight ends or comes nearer to its end in a well-founded order (`rank`). The rest of the turn
keeps that: only a byte fed to the controller could start another transfer, that takes three commits, and an instruction writes
to a VIA once at most. -/

namespace Sys2Proof.Machine

/-! ### How far a transfer is from its end -/

/-- A transfer in flight: all three latches set, the index within the length (R241, R245). -/
structure InFlight (s : State) : Prop where
  busy : s.sc.busy = true
  dsrSet : s.sc.dsrSet = true
  arSet : s.sc.arSet = true
  olrSet : s.sc.olrSet = true
  index : s.sc.xferI ≤ s.sc.olr.toNat

theorem InFlight.of_sc {s t : State} (h : InFlight s) (ht : t.sc = s.sc) : InFlight t := by
  obtain ⟨hb, hd, ha, ho, hi⟩ := h
  rw [← ht] at hb hd ha ho hi
  exact ⟨hb, hd, ha, ho, hi⟩

/-- No transfer in flight and at least two commits from the next one. -/
structure Finished (s : State) : Prop where
  busy : s.sc.busy = false
  arSet : s.sc.arSet = false

/-- A wait in progress comes to its end; one not yet drawn is longer than any. -/
def waitRank : Option Nat → WithTop Nat
  | none => ⊤
  | some n => n

/-- Distances to the end of a transfer, compared lexicographically: turns of the plan, bytes, turns of the wait. -/
abbrev Rank : Type := Nat ×ₗ Nat ×ₗ WithTop Nat

/-- What is left of the agent's plan, then of the bytes, then of the wait. -/
def rank (s : State) : Rank :=
  toLex (s.dmaPlan.length, toLex (s.sc.olr.toNat - s.sc.xferI, waitRank s.dmaWait))

theorem rank_lt_of_plan {s t : State} (h : t.dmaPlan.length < s.dmaPlan.length) : rank t < rank s :=
  Prod.Lex.toLex_lt_toLex.2 (.inl h)

theorem rank_lt_of_bytes {s t : State} (hplan : t.dmaPlan = s.dmaPlan)
    (h : t.sc.olr.toNat - t.sc.xferI < s.sc.olr.toNat - s.sc.xferI) : rank t < rank s :=
  Prod.Lex.toLex_lt_toLex.2 (.inr ⟨congrArg List.length hplan, Prod.Lex.toLex_lt_toLex.2 (.inl h)⟩)

theorem rank_lt_of_wait {s t : State} (hplan : t.dmaPlan = s.dmaPlan) (hsc : t.sc = s.sc)
    (h : waitRank t.dmaWait < waitRank s.dmaWait) : rank t < rank s :=
  Prod.Lex.toLex_lt_toLex.2 (.inr ⟨congrArg List.length hplan, Prod.Lex.toLex_lt_toLex.2 (.inr ⟨by rw [hsc], h⟩)⟩)

/-- A turn let pass shortens the wait, or draws it. -/
theorem waitRank_lt {w : Option Nat} {d n : Nat} (h : w.getD d = n + 1) : waitRank (some n) < waitRank w := by
  cases w with
  | none => exact WithTop.coe_lt_top n
  | some k =>
    have hk : k = n + 1 := h
    exact WithTop.coe_lt_coe.2 (hk ▸ Nat.lt_succ_self n)

/-- The transfer has finished, or is in flight and nearer to its end than `r`. -/
def Ending (r : Rank) (s : State) : Prop := Finished s ∨ InFlight s ∧ rank s < r

/-- The same without the distance to the next transfer. -/
def Ended (r : Rank) (s : State) : Prop := s.sc.busy = false ∨ InFlight s ∧ rank s < r

theorem Ending.ended {r : Rank} {s : State} (h : Ending r s) : Ended r s :=
  h.imp_left Finished.busy

/-- What the agent's steps do to a transfer in flight: they end it, or move its index on and leave it in flight. -/
theorem dmaSteps_inFlight (n : Nat) {s : State} (h : InFlight s) :
    Finished (dmaSteps n s) ∨ InFlight (dmaSteps n s) ∧ (dmaSteps n s).sc = { s.sc with xferI := s.sc.xferI + n } ∧
      s.sc.xferI + n ≤ s.sc.olr.toNat ∧ (dmaSteps n s).dmaPlan = s.dmaPlan := by
  rcases dmaSteps_cases n s h.busy h.index with ⟨hb, ha⟩ | ⟨hsc, hn, hplan, -⟩
  · exact .inl ⟨hb, ha⟩
  · refine .inr ⟨⟨?_, ?_, ?_, ?_, ?_⟩, hsc, hn, hplan⟩ <;> rw [hsc]
    exacts [h.busy, h.dsrSet, h.arSet, h.olrSet, hn]

/-- A turn of the DMA agent with a transfer in flight ends it or brings it nearer to its end: by the plan, which gets shorter, by
letting a turn pass, or by moving a byte at least. -/
theorem dmaTurn_ending {s : State} (h : InFlight s) : Ending (rank s) (dmaTurn s) := by
  cases hplan : s.dmaPlan with
  | cons n rest =>
    rw [dmaTurn_planned h.busy hplan]
    have hin : InFlight (s.setDmaPlan rest) := h.of_sc rfl
    refine (dmaSteps_inFlight n hin).imp_right fun ⟨hin', _, _, hp⟩ => ⟨hin', rank_lt_of_plan ?_⟩
    rw [hp, hplan]
    exact Nat.lt_succ_self _
  | nil =>
    cases hwait : s.dmaWait.getD (Config.dmaDelay s.freeIndex) with
    | succ n =>
      rw [dmaTurn_waiting h.busy hplan hwait]
      exact .inr ⟨h.of_sc rfl, rank_lt_of_wait rfl rfl (waitRank_lt hwait)⟩
    | zero =>
      rw [dmaTurn_moving h.busy hplan hwait]
      have hin : InFlight (s.setDmaWait none).drawFree := h.of_sc rfl
      refine (dmaSteps_inFlight _ hin).imp_right fun ⟨hin', hsc, hn, hp⟩ => ⟨hin', rank_lt_of_bytes hp ?_⟩
      simp only [State.drawFree_sc, State.setDmaWait_sc] at hsc hn
      rw [hsc]
      show s.sc.olr.toNat - (s.sc.xferI + (Config.dmaBurst s.freeIndex + 1)) < s.sc.olr.toNat - s.sc.xferI
      omega

/-! ### What the Bus accesses keep of it -/

/-- The controller's registers and the agent's plan and wait are the same. -/
structure SameAgent (s t : State) : Prop where
  sc : t.sc = s.sc
  dmaPlan : t.dmaPlan = s.dmaPlan
  dmaWait : t.dmaWait = s.dmaWait

theorem SameAgent.rank_eq {s t : State} (h : SameAgent s t) : rank t = rank s := by
  rw [rank, rank, h.sc, h.dmaPlan, h.dmaWait]

theorem SameAgent.inFlight {s t : State} (h : SameAgent s t) (k : InFlight s) : InFlight t := k.of_sc h.sc

/-- A property of the controller and the agent that the agent's turns keep. -/
structure AgentStable (P : State → Prop) : Prop where
  same : ∀ {s t : State}, P s → SameAgent s t → P t
  turn : ∀ {s : State}, P s → P (dmaTurn s)

theorem ending_stable (r : Rank) : AgentStable (Ending r) where
  same k h := by
    refine k.imp (fun ⟨hb, ha⟩ => ?_) fun ⟨hin, hr⟩ => ⟨h.inFlight hin, h.rank_eq ▸ hr⟩
    rw [← h.sc] at hb ha
    exact ⟨hb, ha⟩
  turn k := by
    rcases k with hf | ⟨hin, hr⟩
    · rw [dmaTurn_idle hf.busy]
      exact .inl hf
    · exact (dmaTurn_ending hin).imp_right fun ⟨hin', hr'⟩ => ⟨hin', hr'.trans hr⟩

theorem ended_stable (r : Rank) : AgentStable (Ended r) where
  same k h := k.imp (fun hb => h.sc ▸ hb) fun ⟨hin, hr⟩ => ⟨h.inFlight hin, h.rank_eq ▸ hr⟩
  turn k := by
    rcases k with hb | ⟨hin, hr⟩
    · rw [dmaTurn_idle hb]
      exact .inl hb
    · exact ((ending_stable r).turn (.inr ⟨hin, hr⟩)).ended

theorem setVia_sameAgent (c : ViaId) (v : Via) (s : State) : SameAgent s (s.setVia c v) :=
  ⟨State.setVia_sc .., State.setVia_dmaPlan .., State.setVia_dmaWait ..⟩

theorem busRead_sameAgent (a : Addr) (s : State) : SameAgent s (busRead a s).2 := by
  rw [busRead]
  split
  · rw [viaRead]
    split
    · exact setVia_sameAgent _ _ s
    all_goals exact ⟨rfl, rfl, rfl⟩
  · exact ⟨rfl, rfl, rfl⟩

section Stable

variable {P : State → Prop} (hP : AgentStable P) {s : State}
include hP

theorem AgentStable.setA (h : P s) (v : Byte) : P (s.setA v) := hP.same h ⟨rfl, rfl, rfl⟩
theorem AgentStable.setX (h : P s) (v : Byte) : P (s.setX v) := hP.same h ⟨rfl, rfl, rfl⟩
theorem AgentStable.setY (h : P s) (v : Byte) : P (s.setY v) := hP.same h ⟨rfl, rfl, rfl⟩
theorem AgentStable.setSp (h : P s) (v : Byte) : P (s.setSp v) := hP.same h ⟨rfl, rfl, rfl⟩
theorem AgentStable.setP (h : P s) (v : Byte) : P (s.setP v) := hP.same h ⟨rfl, rfl, rfl⟩
theorem AgentStable.setNZ (h : P s) (v : Byte) : P (s.setNZ v) := hP.setP h _
theorem AgentStable.setPc (h : P s) (v : Addr) : P (s.setPc v) := hP.same h ⟨rfl, rfl, rfl⟩
theorem AgentStable.charge (h : P s) (n : Nat) : P (s.charge n) := hP.same h ⟨rfl, rfl, rfl⟩
theorem AgentStable.setNmiLatch (h : P s) (b : Bool) : P (s.setNmiLatch b) := hP.same h ⟨rfl, rfl, rfl⟩
theorem AgentStable.setMem (h : P s) (m : Memory) : P (s.setMem m) := hP.same h ⟨rfl, rfl, rfl⟩

theorem AgentStable.memRead (h : P s) (a : Addr) : P (memRead a s).2 :=
  hP.same (hP.turn h) (busRead_sameAgent a _)

theorem AgentStable.read16 (h : P s) (a : Addr) : P (read16 a s).2 := hP.memRead (hP.memRead h a) _

theorem AgentStable.read16zp (h : P s) (z : Byte) : P (read16zp z s).2 := hP.memRead (hP.memRead h _) _

theorem AgentStable.effAddr (h : P s) (m : Mode) : P (effAddr m s).st := by
  cases m with
  | zpi z | izy z => exact hP.read16zp h z
  | izx z => exact hP.read16zp h (z + s.x)
  | ind a => exact hP.read16 h a
  | iax a => exact hP.read16 h (a + zext16 s.x)
  | _ => exact h

theorem AgentStable.readOperand (h : P s) (m : Mode) : P (readOperand m s).st := by
  cases m with
  | imm v | acc => exact h
  | _ => exact hP.memRead (hP.effAddr h _) _

theorem AgentStable.pull (h : P s) : P (pull s).2 := hP.memRead (hP.setSp h _) _

theorem AgentStable.pull16 (h : P s) : P (pull16 s).2 := hP.pull (hP.pull h)

/-- A write that leads to Bus memory is no concern of the controller's. -/
theorem AgentStable.memWrite_plain (h : P s) {a : Addr} (ha : plainAddr s a) (v : Byte) : P (memWrite a v s) := by
  rw [memWrite, busWrite, dmaTurn_cfg, ha]
  exact hP.setMem (hP.turn h) _

theorem AgentStable.push (h : P s) (hc : configOk s.cfg = true) (v : Byte) : P (push v s) :=
  hP.setSp (hP.memWrite_plain h (decodeAddr_stackPage hc s.sp) v) _

theorem AgentStable.push16 (h : P s) (hc : configOk s.cfg = true) (a : Addr) : P (push16 a s) :=
  hP.push (hP.push h hc _) (by rwa [push_cfg]) _

theorem AgentStable.takeException (h : P s) (hc : configOk s.cfg = true) (ret : Addr) (status : Byte) (vec : Addr) :
    P (takeException ret status vec s) := by
  have hpush : P (Machine.push status (Machine.push16 ret s)) := hP.push (hP.push16 h hc ret) (by rwa [push16_cfg]) status
  rw [Machine.takeException]
  exact hP.charge (hP.setPc (hP.read16 (hP.setP hpush _) vec) _) 7

theorem AgentStable.softwareInterrupt (h : P s) (hc : configOk s.cfg = true) : P (softwareInterrupt s) := by
  simp only [Machine.softwareInterrupt]
  exact hP.takeException (hP.setP h _) (by exact hc) _ _ _

theorem AgentStable.returnFromException (h : P s) : P (returnFromException s) := by
  rw [Machine.returnFromException]
  exact hP.charge (hP.setPc (hP.pull16 (hP.setP (hP.pull h) _)) _) 6

theorem AgentStable.branch (h : P s) (cond : Bool) (rel8 : Byte) : P (branch cond rel8 s) := by
  cases cond with
  | false => exact hP.charge h _
  | true => exact hP.charge (hP.setPc h _) _

theorem AgentStable.interruptCheck (h : P s) (hc : configOk s.cfg = true) : P (interruptCheck s) := by
  rw [Machine.interruptCheck]
  split
  · rw [interruptEntry]
    exact hP.takeException (hP.setNmiLatch h false) hc _ _ _
  · split
    · rw [interruptEntry]
      exact hP.takeException h hc _ _ _
    · exact h

theorem AgentStable.fetch (h : P s) : P (fetch s).2 := hP.setPc (hP.memRead h s.pc) _

theorem AgentStable.clearRun (n : Nat) : ∀ (a : Nat) {s : State}, P s → P (clearRun a n s) := by
  induction n with
  | zero => exact fun _ _ h => h
  | succ n ih => exact fun a _ h => ih (a + 1) (hP.setMem (hP.turn h) _)

theorem AgentStable.clearRam (h : P s) : P (clearRam s) := by
  rw [Machine.clearRam]
  split
  · exact hP.clearRun _ 0 h
  · exact hP.setMem h _

end Stable

/-! ### A byte fed to the controller -/

section Feed

variable {r : Rank} {s : State}

/-- One commit starts no transfer: with none in flight AR is still to be set, with one in flight all three latches are set. -/
theorem scCommit_ended (h : Ending r s) (c : Companion) : Ended r (scCommit c s) := by
  rcases h with ⟨hb, ha⟩ | ⟨hin, hr⟩
  · cases hd : s.sc.dsrSet with
    | false =>
      rw [scCommit_dsr c hd]
      exact .inl hb
    | true =>
      rw [scCommit_ar c hd ha]
      exact .inl hb
  · rw [scCommit_full c hin.dsrSet hin.arSet hin.olrSet]
    exact .inr ⟨⟨hin.busy, hin.dsrSet, hin.arSet, hin.olrSet, hin.index⟩, hr⟩

/-- The scratch value, the phase and the direction say nothing about the end of a transfer. -/
theorem ending_setSc_byte (h : Ending r s) (w : BitVec 22) (p : Phase) (d : Direction) :
    Ending r (s.setSc { s.sc with scratch := w, phase := p, dir := d }) :=
  h.imp (fun ⟨hb, ha⟩ => ⟨hb, ha⟩) fun ⟨⟨hb, hd, ha, ho, hi⟩, hr⟩ => ⟨⟨hb, hd, ha, ho, hi⟩, hr⟩

theorem scWriteByte_ended (h : Ending r s) (b : Byte) (c : Companion) : Ended r (scWriteByte b c s) := by
  cases hp : s.sc.phase with
  | byte0 =>
    rw [scWriteByte_byte0 b c hp]
    exact (ending_setSc_byte h _ _ s.sc.dir).ended
  | byte1 =>
    rw [scWriteByte_byte1 b c hp]
    exact (ending_setSc_byte h _ _ s.sc.dir).ended
  | byte2 =>
    rw [scWriteByte_byte2 b c hp]
    have hbyte := ending_setSc_byte h (s.sc.scratch ||| ((b.setWidth 22 &&& 0x3F#22) <<< 16)) .byte0
      (if b.getLsbD 6 then .send else .receive)
    exact iteInduction (motive := Ended r) (fun _ => scCommit_ended hbyte c) (fun _ => hbyte.ended)

theorem feed_ended (h : Ending r s) (c : ViaId) (p : Port) (v : Byte) : Ended r (feed c p v s) := by
  rw [feed]
  split
  · split
    · exact scWriteByte_ended h v _
    · exact h.ended
  · exact h.ended

theorem viaWrite_ended (h : Ending r s) (c : ViaId) (o : BitVec 4) (v : Byte) : Ended r (viaWrite c o v s) := by
  have hvia (w : Via) : Ending r (s.setVia c w) := (ending_stable r).same h (setVia_sameAgent c w s)
  rw [viaWrite]
  split
  · exact feed_ended (hvia _) c _ v
  · exact (hvia _).ended
  · exact (hvia _).ended
  · exact (hvia _).ended
  · exact (hvia _).ended
  · exact h.ended

/-- The one write of an instruction to an address of its own. -/
theorem memWrite_ended (h : Ending r s) (a : Addr) (v : Byte) : Ended r (memWrite a v s) := by
  have hturn := (ending_stable r).turn h
  rw [memWrite, busWrite]
  split
  · exact viaWrite_ended hturn _ _ v
  · exact ((ending_stable r).setMem hturn _).ended

theorem modifyOperand_ended (h : Ending r s) (m : Mode) (f : Byte → Byte × Byte) (cost : Bool → Nat) :
    Ended r (modifyOperand m f cost s) := by
  have hP := ending_stable r
  by_cases hm : m = .acc
  · subst hm
    exact (hP.charge (hP.setA (hP.setP h _) _) _).ended
  · rw [modifyOperand_memory hm]
    have hread := hP.memRead (hP.effAddr h m) (effAddr m s).addr
    exact (ended_stable r).same (memWrite_ended (hP.setP hread _) _ _) ⟨rfl, rfl, rfl⟩

end Feed

/-! ### A CPU turn -/

theorem exec_ended {r : Rank} {s : State} (h : Ending r s) (hc : configOk s.cfg = true) (i : Instr) :
    ∃ t, exec i s = .next t ∧ Ended r t := by
  have hP := ending_stable r
  have hE := ended_stable r
  cases i with
  | lda m | ora m | and m | eor m => exact ⟨_, rfl, (hP.charge (hP.setNZ (hP.setA (hP.readOperand h m) _) _) _).ended⟩
  | ldx m => exact ⟨_, rfl, (hP.charge (hP.setNZ (hP.setX (hP.readOperand h m) _) _) _).ended⟩
  | ldy m => exact ⟨_, rfl, (hP.charge (hP.setNZ (hP.setY (hP.readOperand h m) _) _) _).ended⟩
  | adc m | sbc m => exact ⟨_, rfl, (hP.charge (hP.setP (hP.setA (hP.readOperand h m) _) _) _).ended⟩
  | bit m | cmp m | cpx m | cpy m => exact ⟨_, rfl, (hP.charge (hP.setP (hP.readOperand h m) _) _).ended⟩
  | sta m | stx m | sty m | stz m => exact ⟨_, rfl, hE.charge (memWrite_ended (hP.effAddr h m) _ _) _⟩
  | tsb m | trb m | asl m | lsr m | rol m | ror m | inc m | dec m => exact ⟨_, rfl, modifyOperand_ended h m _ _⟩
  | bpl q | bmi q | bvc q | bvs q | bcc q | bcs q | bne q | beq q | bra q => exact ⟨_, rfl, (hP.branch h _ q).ended⟩
  | jmp m => exact ⟨_, rfl, (hP.charge (hP.setPc (hP.effAddr h m) _) _).ended⟩
  | pha | php | phx | phy => exact ⟨_, rfl, (hP.charge (hP.push h hc _) _).ended⟩
  | pla => exact ⟨_, rfl, (hP.charge (hP.setNZ (hP.setA (hP.pull h) _) _) _).ended⟩
  | plx => exact ⟨_, rfl, (hP.charge (hP.setNZ (hP.setX (hP.pull h) _) _) _).ended⟩
  | ply => exact ⟨_, rfl, (hP.charge (hP.setNZ (hP.setY (hP.pull h) _) _) _).ended⟩
  | plp => exact ⟨_, rfl, (hP.charge (hP.setP (hP.pull h) _) _).ended⟩
  | jsr a => exact ⟨_, rfl, (hP.charge (hP.setPc (hP.push16 h hc _) _) _).ended⟩
  | rts => exact ⟨_, rfl, (hP.charge (hP.setPc (hP.pull16 h) _) _).ended⟩
  | rti => exact ⟨_, rfl, (hP.returnFromException h).ended⟩
  | brk => exact ⟨_, rfl, (hP.softwareInterrupt h hc).ended⟩
  -- transfers, flags, counts in registers, NOP and the reserved opcodes make no access
  | _ => exact ⟨_, rfl, hE.same h.ended ⟨rfl, rfl, rfl⟩⟩

/-- The first Bus access of a turn brings a transfer in flight nearer to its end. -/
theorem memRead_ending {s : State} (h : InFlight s) (a : Addr) : Ending (rank s) (memRead a s).2 :=
  (ending_stable _).same (dmaTurn_ending h) (busRead_sameAgent a _)

theorem fetchInstr_ending {s : State} (h : InFlight s) : Ending (rank s) (fetchInstr s).2 := by
  have hP := ending_stable (rank s)
  have hop : Ending (rank s) (fetch s).2 := hP.setPc (memRead_ending h s.pc) _
  simp only [fetchInstr]
  split
  · exact hop
  · exact hP.fetch hop
  · exact hP.fetch (hP.fetch hop)

theorem resetStep_ending {s : State} (h : InFlight s) : Ending (rank s) (resetStep s) := by
  have hP := ending_stable (rank s)
  have hfirst (a : Addr) (u : State) (hu : SameAgent s u) : Ending (rank s) (memRead a u).2 :=
    hu.rank_eq ▸ memRead_ending (hu.inFlight h) a
  have hcpu : Ending (rank s) (cpuReset s) := by
    rw [cpuReset]
    refine hP.charge (hP.setPc (hP.memRead (hfirst _ _ ?_) _) _) _
    exact ⟨rfl, rfl, rfl⟩
  rw [resetStep]
  exact hP.clearRam hcpu

/-- Whatever a CPU turn does, a transfer in flight at its start is finished at its end or has come nearer to it. -/
theorem cpuStep_ended {s t : State} (h : InFlight s) (hc : configOk s.cfg = true) (ht : cpuStep s = .next t) :
    Ended (rank s) t := by
  rw [cpuStep] at ht
  split at ht
  · cases ht
    exact (dmaTurn_ending h).ended
  · split at ht
    · cases ht
      exact (resetStep_ending h).ended
    · obtain ⟨u, hu, hended⟩ := exec_ended (fetchInstr_ending h) (by rwa [fetchInstr_cfg]) (fetchInstr s).1
      cases (runInstr_of_exec hu).symm.trans ht
      refine (ended_stable _).interruptCheck hended ?_
      rwa [(frame_of_exec hu).cfg, fetchInstr_cfg]

/-! ### Every turn of a powered machine -/

/-- The lines and the coming turns are the same. -/
structure SameBoard (s t : State) : Prop where
  lines : t.lines = s.lines
  script : t.script = s.script

theorem SameBoard.trans {s t u : State} (h : SameBoard s t) (k : SameBoard t u) : SameBoard s u :=
  ⟨k.lines.trans h.lines, k.script.trans h.script⟩

theorem SameBoard.of_sameCpu {s t : State} (h : SameCpu s t) : SameBoard s t := ⟨h.lines, h.script⟩

theorem fetch_sameBoard (s : State) : SameBoard s (fetch s).2 :=
  (SameBoard.of_sameCpu (memRead_sameCpu s.pc s)).trans ⟨rfl, rfl⟩

theorem fetchInstr_sameBoard (s : State) : SameBoard s (fetchInstr s).2 := by
  simp only [fetchInstr]
  split
  · exact fetch_sameBoard s
  · exact (fetch_sameBoard s).trans (fetch_sameBoard _)
  · exact ((fetch_sameBoard s).trans (fetch_sameBoard _)).trans (fetch_sameBoard _)

theorem interruptEntry_sameBoard (vec : Addr) (s : State) : SameBoard s (interruptEntry vec s) := by
  have hframe : Frame [.sp] [.i, .d] s (interruptEntry vec s) :=
    frame_takeException (.head _) (.head _) (fun _ => .tail _ (.head _)) _ _ vec
  exact ⟨hframe.lines, hframe.script⟩

theorem interruptCheck_sameBoard (s : State) : SameBoard s (interruptCheck s) := by
  rw [interruptCheck]
  split
  · have hlatch : SameBoard s (s.setNmiLatch false) := ⟨rfl, rfl⟩
    exact hlatch.trans (interruptEntry_sameBoard _ _)
  · split
    · exact interruptEntry_sameBoard _ s
    · exact ⟨rfl, rfl⟩

theorem clearRun_sameBoard (n : Nat) : ∀ (a : Nat) (s : State), SameBoard s (clearRun a n s) := by
  induction n with
  | zero => exact fun _ _ => ⟨rfl, rfl⟩
  | succ n ih =>
    exact fun a s => (SameBoard.of_sameCpu ((dmaTurn_sameCpu s).trans (ramWrite_sameCpu _ _ _))).trans (ih (a + 1) _)

theorem resetStep_sameBoard (s : State) : SameBoard s (resetStep s) := by
  have hcpu : SameBoard s (cpuReset s) := ⟨by simp [cpuReset], by simp [cpuReset]⟩
  rw [resetStep, clearRam]
  split
  · exact hcpu.trans (clearRun_sameBoard _ 0 _)
  · exact hcpu.trans ⟨rfl, rfl⟩

theorem cpuStep_sameBoard {s t : State} (ht : cpuStep s = .next t) : SameBoard s t := by
  rw [cpuStep] at ht
  split at ht
  · cases ht
    exact .of_sameCpu (dmaTurn_sameCpu s)
  · split at ht
    · cases ht
      exact resetStep_sameBoard s
    · obtain ⟨u, hu, hframe⟩ := exec_frame (fetchInstr s).2 (fetchInstr s).1
      cases (runInstr_of_exec hu).symm.trans ht
      exact ((fetchInstr_sameBoard s).trans ⟨hframe.lines, hframe.script⟩).trans (interruptCheck_sameBoard u)

theorem envMove_script (m : EnvMove) (s : State) : (envMove m s).script = s.script := by
  cases m with
  | setNmiN b => exact (congrArg State.script (driveNmi_eq b s)).trans rfl
  | setPin c p v => exact State.setVia_script ..
  | assertCl1 c => exact State.setVia_script ..
  | _ => rfl

theorem envMove_power {m : EnvMove} {s : State} (hm : m ≠ .setPower false) (hp : s.lines.power = true) :
    (envMove m s).lines.power = true := by
  cases m with
  | setPower b =>
    cases b with
    | true => rfl
    | false => exact absurd rfl hm
  | setNmiN b => exact (congrArg (fun t => t.lines.power) (driveNmi_eq b s)).trans hp
  | setPin c p v => exact (congrArg Lines.power (State.setVia_lines ..)).trans hp
  | assertCl1 c => exact (congrArg Lines.power (State.setVia_lines ..)).trans hp
  | _ => exact hp

/-- A turn of the script that does not switch the power off leaves the machine powered with the rest of the script. -/
theorem step_turn {s : State} {m : Turn} {l : List Turn} (hc : configOk s.cfg = true) (hp : s.lines.power = true)
    (hs : s.script = m :: l) (hm : m ≠ .env (.setPower false)) :
    ∃ t, step s = .next t ∧ t.script = l ∧ t.lines.power = true := by
  obtain ⟨t, ht, -⟩ := step_next_cfg hc hp
  refine ⟨t, ht, ?_⟩
  rw [step, if_pos hc, if_neg (by simp [hp]), hs] at ht
  cases m with
  | cpu =>
    have h := cpuStep_sameBoard ht
    exact ⟨h.script, h.lines ▸ hp⟩
  | dma =>
    cases ht
    have h := dmaSteps_sameCpu 1 (s.setScript l)
    exact ⟨h.script, h.lines ▸ hp⟩
  | env m =>
    cases ht
    exact ⟨envMove_script m _, envMove_power (fun h => hm (congrArg _ h)) hp⟩

theorem inFlight_of_inv {s : State} (h : s.Inv) (hb : s.sc.busy = true) : InFlight s := by
  obtain ⟨-, -, ⟨hset, -, -, hrun, -⟩, -⟩ := h
  obtain ⟨hd, ha, ho⟩ := hset.1 hb
  exact ⟨hb, hd, ha, ho, (hrun hb).2⟩

/-- With no turn scripted every turn is the CPU's, and each brings the transfer nearer to its end. -/
theorem finishes_of_cpu_turns {s : State} (hc : configOk s.cfg = true) (hp : s.lines.power = true) (hs : s.script = [])
    (h : s.sc.busy = false ∨ InFlight s) : ∃ n t, run n (.next s) = .next t ∧ t.sc.busy = false := by
  induction hr : rank s using WellFoundedLT.induction generalizing s with
  | ind r ih =>
    rcases h with hb | hin
    · exact ⟨0, s, rfl, hb⟩
    · obtain ⟨u, hu, hcfg⟩ := cpuStep_next_cfg s
      have hboard := cpuStep_sameBoard hu
      have hstep : step s = .next u := (step_cpu hc hp hs).trans hu
      rcases cpuStep_ended hin hc hu with hb | ⟨hin', hlt⟩
      · exact ⟨1, u, run_step hstep 0, hb⟩
      · obtain ⟨n, t, ht, hb⟩ := ih (rank u) (hr ▸ hlt) (hcfg ▸ hc) (hboard.lines ▸ hp) (hboard.script.trans hs)
          (.inr hin') rfl
        exact ⟨n + 1, t, (run_step hstep n).trans ht, hb⟩

/-- Settles O57: the script's turns come to an end, and then the CPU's turns finish the transfer (`finishes_of_cpu_turns`). -/
theorem asynchronousTransferFinishes : Obligations.AsynchronousTransferFinishes := by
  intro s hinv hc hp hoff
  induction hs : s.script generalizing s with
  | nil =>
    refine finishes_of_cpu_turns hc hp hs ?_
    cases hb : s.sc.busy with
    | false => exact .inl rfl
    | true => exact .inr (inFlight_of_inv hinv hb)
  | cons m l ih =>
    rw [hs, List.mem_cons, not_or] at hoff
    obtain ⟨u, hu, hscript, hpower⟩ := step_turn hc hp hs (Ne.symm hoff.1)
    obtain ⟨n, t, ht, hb⟩ := ih u (stepKeepsInvariant s u hinv hu) ((parametersFixed.1 s u hu).symm ▸ hc) hpower
      (hscript ▸ hoff.2) hscript
    exact ⟨n + 1, t, (run_step hu n).trans ht, hb⟩

end Sys2Proof.Machine
end
